-- ==== Sys2Proof/Word.lean ====
section
/-!
DEFINITION. The word types of the block: bytes (R11) and 16-bit operation words (R69).
-/

namespace Sys2Proof

/-- An unsigned 8-bit value (R11): `+` on it is the `+8` of R12. -/
abbrev Byte := BitVec 8

/-- The 16-bit operation word with which the host selects an operation (R69). -/
abbrev OpWord := BitVec 16

end Sys2Proof
end

