-- ==== Sys2Proof/Config.lean ====
section
/-!
DEFINITION. The implementation parameters of R9: fixed when the block is built, not state and not readable or writable by any
operation (R28). Each of the eleven is a field of `Params`, the configuration argument of every shared operation. The block runs at
`params`, which binds the parameters to the column "value" of R9, but for those the spec leaves open or asks a model to keep as
parameters (D3, D13, D14, D19): these are unknown, so what is proved of the block holds for every choice of them.
-/

namespace Sys2Proof.Config

/-! ## The values R9 gives -/

/-- The value of `ADDR`, the address byte of every frame (R9, R53, R61). -/
abbrev addr : Byte := 0x00#8

/-- The value of `MAX_PAYLOAD` (R9, R60, C1), which is also the number of elements of RX_BUF (R20). -/
abbrev maxPayload : Nat := 255

/-- The value of `RESP_BIT`, bit 7 of a command byte (R9, R62). -/
abbrev respBit : Byte := 0x80#8

/-- The value of `N_SLOTS`, the number of slots of KB_SLOT (R9, R23). -/
abbrev nSlots : Nat := 6

/-- The value of `N_MOD`, the number of modifier codes (R9, R112). -/
abbrev nMod : Nat := 8

/-- The value of `KB_REPORT_LEN`, the length of the keyboard report (R9, R67, D15). -/
abbrev kbReportLen : Nat := 8

/-- The command code of SendKeyboardGeneral, which KEY_DOWN and KEY_UP send (R63, R118): no parameter. -/
abbrev cmdKeyboardGeneral : Byte := 0x02#8

/-! ## The parameters -/

/-- The two readings of the source's "toggle" for a modifier bit (R113, D14, U9). -/
inductive ModUpdate where
  /-- KEY_DOWN sets the bit, KEY_UP clears it. -/
  | setClear
  /-- KEY_DOWN and KEY_UP both flip the bit. -/
  | xor
  deriving DecidableEq, Repr, Inhabited

/-- The parameters of R9 that the spec leaves open, or asks a model to keep as parameters. -/
structure OpenParams where
  /-- `SYNC_HI`, any byte (D3; log 1). -/
  syncHi : Byte
  /-- `SYNC_LO`, any byte (D3; log 1). -/
  syncLo : Byte
  /-- `MOD_BASE - 1`. DEDUCED (log 2): the eight modifier codes are bytes (R111, R112) and 0x00 is no key (R111), so
  `MOD_BASE` is in 1..248. -/
  modOffset : Fin 248
  /-- `MOD_UPDATE` (D14; log 3). -/
  modUpdate : ModUpdate
  /-- `CMD_RESET - 6`: `CMD_RESET` is a request code in 0x01..0x0F other than 0x01..0x05 (R63, D19; log 4). -/
  resetOffset : Fin 10
  deriving DecidableEq, Repr, Inhabited

/-- All parameters of R9. The bounds of the counts are what the state and a byte can hold (log 19). -/
structure Params extends OpenParams where
  /-- `ADDR`. -/
  addr : Byte
  /-- `MAX_PAYLOAD`: a payload's length fits its one-byte field (R60). -/
  maxPayload : Fin 256
  /-- `RESP_BIT`. -/
  respBit : Byte
  /-- `N_SLOTS`: how many of the slots of KB_SLOT are in use. -/
  nSlots : Fin (Config.nSlots + 1)
  /-- `N_MOD`: one bit of KB_MOD for each modifier code. -/
  nMod : Fin 9
  /-- `KB_REPORT_LEN`: the report is one frame's payload. -/
  kbReportLen : Fin 256
  deriving DecidableEq, Repr, Inhabited

/-- The open parameters with the values R9 gives the others. -/
def OpenParams.withSpecValues (o : OpenParams) : Params where
  toOpenParams := o
  addr := Config.addr
  maxPayload := ⟨Config.maxPayload, by decide⟩
  respBit := Config.respBit
  nSlots := ⟨Config.nSlots, by decide⟩
  nMod := ⟨Config.nMod, by decide⟩
  kbReportLen := ⟨Config.kbReportLen, by decide⟩

/-- `MOD_BASE`, the first of the eight modifier codes (R112). -/
def Params.modBase (P : Params) : Byte := BitVec.ofNat 8 (P.modOffset.val + 1)

/-- `CMD_RESET`, the command code of the reset request (R63, R136). -/
def Params.cmdReset (P : Params) : Byte := BitVec.ofNat 8 (P.resetOffset.val + 6)

/-- `S0`, the sync bytes' contribution to every checksum (R10). -/
def Params.s0 (P : Params) : Byte := P.syncHi + P.syncLo

/-- The spec's default instantiation for its examples (R9, 95_test_vectors.md): sync 0x57 0xAB, `MOD_BASE = 0xE0`, with the
update mode and the reset code (which has no default) as given. Only tests use it. -/
def Params.specDefault (u : ModUpdate) (resetOffset : Fin 10) : Params :=
  OpenParams.withSpecValues
    { syncHi := 0x57#8, syncLo := 0xAB#8, modOffset := 0xDF, modUpdate := u, resetOffset := resetOffset }

/-- The open parameters the block was built with: nothing is known of them but their types (R9, R28; logs 1 to 4). -/
opaque openParams : OpenParams

/-- The parameters of the block: the column "value" of R9, and the open ones unknown. -/
def params : Params := openParams.withSpecValues

end Sys2Proof.Config
end

