-- ==== Sys2Proof/Syntax.lean ====
section
/-!
DEFINITION. The syntax: a Frame (R15), what the host presents in one transaction (R37), and the instructions, one constructor per row
of spec/opcode_table.json, each with its operands (R19, R70, R131 to R142).
-/

namespace Sys2Proof

/-- A logical frame (R15). Its length field is the payload's length; its sync bytes are constants and its checksum is computed on
demand, so neither is stored. `|payload| <= MAX_PAYLOAD` is `Frame.wf` in WellFormed.lean. -/
structure Frame where
  addr : Byte
  cmd : Byte
  payload : List Byte
  deriving DecidableEq, Repr

/-- The operand ports of a transaction (R37): a byte sequence for ENCODE and DECODE, a Frame for CLASSIFY and MATCH_RESPONSE. Both
ports always hold something, and an operation looks only at the port of its own kind (DESIGN CHOICE, log 8). -/
structure Operand where
  bytes : List Byte
  frame : Frame
  deriving DecidableEq, Repr

/-- What the host presents in one transaction. -/
inductive Request where
  /-- An operation word with its operand (R37, R69). -/
  | op (word : OpWord) (operand : Operand)
  /-- A wire command by its command code and payload (R130): a request code is a frame to build, a response code a parsed
  response frame to read (DEDUCED, log 11). -/
  | command (code : Byte) (payload : List Byte)
  deriving DecidableEq, Repr

/-- The instructions: the eight operations of R70 and the twelve wire commands of R131 to R142, one per row of the opcode table. -/
inductive Instr where
  /-- ENCODE cmd, payload (R89). -/
  | encode (cmd : Byte) (payload : List Byte)
  /-- DECODE input (R92). -/
  | decode (input : List Byte)
  /-- CLASSIFY frame (R101). -/
  | classify (frame : Frame)
  /-- MATCH_RESPONSE req, frame (R104). -/
  | matchResponse (req : Byte) (frame : Frame)
  /-- KEY_DOWN code (R119). -/
  | keyDown (code : Byte)
  /-- KEY_UP code (R120). -/
  | keyUp (code : Byte)
  /-- RX_BYTE b (R98). -/
  | rxByte (b : Byte)
  /-- RX_END (R99). -/
  | rxEnd
  /-- GetInfo request, code 0x01 (R131). -/
  | getInfo (payload : List Byte)
  /-- GetInfo response, code 0x81 (R137). -/
  | getInfoResp (payload : List Byte)
  /-- SendKeyboardGeneral request, code 0x02 (R132). -/
  | sendKeyboardGeneral (payload : List Byte)
  /-- SendKeyboardGeneral response, code 0x82 (R138). -/
  | sendKeyboardGeneralResp (payload : List Byte)
  /-- SendKeyboardMedia request, code 0x03 (R133). -/
  | sendKeyboardMedia (payload : List Byte)
  /-- SendKeyboardMedia response, code 0x83 (R139). -/
  | sendKeyboardMediaResp (payload : List Byte)
  /-- SendMouseAbs request, code 0x04 (R134). -/
  | sendMouseAbs (payload : List Byte)
  /-- SendMouseAbs response, code 0x84 (R140). -/
  | sendMouseAbsResp (payload : List Byte)
  /-- SendMouseRel request, code 0x05 (R135). -/
  | sendMouseRel (payload : List Byte)
  /-- SendMouseRel response, code 0x85 (R141). -/
  | sendMouseRelResp (payload : List Byte)
  /-- Reset request, code `CMD_RESET` (R136). -/
  | reset (payload : List Byte)
  /-- Reset response, code `CMD_RESET | 0x80` (R142). -/
  | resetResp (payload : List Byte)
  deriving DecidableEq, Repr

end Sys2Proof
end

