-- ==== Sys2Proof/Decode.lean ====
section
/-!
DEFINITION. Decoding what the host presents: the 16-bit operation word (R69 to R71, R75) and the command code of a wire command (R62 to
R65); and the encoder, written from the same tables. Decoding is total; a reserved operation word is rejected by name.
-/

namespace Sys2Proof

/-! ## Fields of the operation word (R69) -/

/-- `rsv`, bits 15:11. -/
def rsvField (w : OpWord) : BitVec 5 := w.extractLsb' 11 5

/-- `op`, bits 10:8. -/
def opField (w : OpWord) : BitVec 3 := w.extractLsb' 8 3

/-- `arg`, bits 7:0, taken as a byte as it stands. -/
def argField (w : OpWord) : Byte := w.extractLsb' 0 8

/-- The operation word with `rsv = 0` and the given selector and argument. -/
def opWord (op : BitVec 3) (arg : Byte) : OpWord := 0#5 ++ op ++ arg

/-- The operation word from its two stored bytes, bit 15 first (R69). -/
def opWordOfBytes (first second : Byte) : OpWord := first ++ second

/-! ## The decoder -/

/-- Why the decoder rejects what the host presents. -/
inductive Reject where
  /-- The word spells no operation (R71). -/
  | reservedOp (word : OpWord)
  deriving DecidableEq, Repr

/-- The instruction if the argument is 0x00, as DECODE, CLASSIFY and RX_END require (R70, R71). -/
def decodeZeroArg (w : OpWord) (i : Instr) : Except Reject Instr :=
  if argField w = 0x00#8 then .ok i else .error (.reservedOp w)

/-- The operation an operation word spells (R70, R71). -/
def decodeWord (w : OpWord) (o : Operand) : Except Reject Instr :=
  if rsvField w = 0#5 then
    match (opField w).toNat with
    | 0 => .ok (.encode (argField w) o.bytes)
    | 1 => decodeZeroArg w (.decode o.bytes)
    | 2 => decodeZeroArg w (.classify o.frame)
    | 3 => .ok (.matchResponse (argField w) o.frame)
    | 4 => .ok (.keyDown (argField w))
    | 5 => .ok (.keyUp (argField w))
    | 6 => .ok (.rxByte (argField w))
    | _ => decodeZeroArg w .rxEnd
  else .error (.reservedOp w)

/-- `RESP_BIT` of a command byte: set in a response code, clear in a request code; no other bit is read (R62, C3). -/
def isResponseCode (P : Config.Params) (c : Byte) : Bool := decide (c &&& P.respBit ≠ 0x00#8)

/-- Whether a code is `CMD_RESET`, one of 0x06..0x0F (R63). -/
def isResetCode (P : Config.Params) (c : Byte) : Bool :=
  decide (6 ≤ c.toNat ∧ c.toNat ≤ 15 ∧ c = P.cmdReset)

/-- The request code that a response code answers (R62, R64). -/
def requestCode (P : Config.Params) (c : Byte) : Byte := c &&& ~~~P.respBit

/-- The response code to a request code (R62, R64). -/
def responseCode (P : Config.Params) (c : Byte) : Byte := c ||| P.respBit

/-- The response a response-side code names, by the request code it answers (R64). -/
def decodeResponse (P : Config.Params) (code : Byte) (payload : List Byte) : Instr :=
  match (requestCode P code).toNat with
  | 0x01 => .getInfoResp payload
  | 0x02 => .sendKeyboardGeneralResp payload
  | 0x03 => .sendKeyboardMediaResp payload
  | 0x04 => .sendMouseAbsResp payload
  | 0x05 => .sendMouseRelResp payload
  | _ =>
    if isResetCode P (requestCode P code) then .resetResp payload
    else .matchResponse (requestCode P code) ⟨P.addr, code, payload⟩

/-- The request a request-side code names (R63). -/
def decodeRequest (P : Config.Params) (code : Byte) (payload : List Byte) : Instr :=
  match code.toNat with
  | 0x01 => .getInfo payload
  | 0x02 => .sendKeyboardGeneral payload
  | 0x03 => .sendKeyboardMedia payload
  | 0x04 => .sendMouseAbs payload
  | 0x05 => .sendMouseRel payload
  | _ => if isResetCode P code then .reset payload else .encode code payload

/-- The wire command a command code names (R63, R64). A code the tables do not list has no meaning of its own but is not illegal to
the codec (R65, R143): a request-side one is the ENCODE of that code, a response-side one the MATCH_RESPONSE that reads it (DEDUCED,
log 12). -/
def decodeCommand (P : Config.Params) (code : Byte) (payload : List Byte) : Instr :=
  if isResponseCode P code then decodeResponse P code payload else decodeRequest P code payload

/-- The instruction the host presents, or why there is none. -/
def decodeWith (P : Config.Params) : Request → Except Reject Instr
  | .op w o => decodeWord w o
  | .command code payload => .ok (decodeCommand P code payload)

/-- The block's decoder, at the block's own parameters. -/
def decode (r : Request) : Except Reject Instr := decodeWith Config.params r

/-! ## The encoder -/

/-- Operand ports with nothing on them: an empty byte sequence and an empty frame (log 8). -/
def noOperand : Operand := ⟨[], ⟨0x00#8, 0x00#8, []⟩⟩

/-- The byte-sequence port loaded. -/
def bytesOperand (b : List Byte) : Operand := { noOperand with bytes := b }

/-- The Frame port loaded. -/
def frameOperand (f : Frame) : Operand := { noOperand with frame := f }

/-- What the host presents for an instruction (R63, R64, R70, R75). -/
def encodeWith (P : Config.Params) : Instr → Request
  | .encode cmd p => .op (opWord 0 cmd) (bytesOperand p)
  | .decode b => .op (opWord 1 0x00#8) (bytesOperand b)
  | .classify f => .op (opWord 2 0x00#8) (frameOperand f)
  | .matchResponse req f => .op (opWord 3 req) (frameOperand f)
  | .keyDown c => .op (opWord 4 c) noOperand
  | .keyUp c => .op (opWord 5 c) noOperand
  | .rxByte b => .op (opWord 6 b) noOperand
  | .rxEnd => .op (opWord 7 0x00#8) noOperand
  | .getInfo p => .command 0x01#8 p
  | .getInfoResp p => .command (responseCode P 0x01#8) p
  | .sendKeyboardGeneral p => .command 0x02#8 p
  | .sendKeyboardGeneralResp p => .command (responseCode P 0x02#8) p
  | .sendKeyboardMedia p => .command 0x03#8 p
  | .sendKeyboardMediaResp p => .command (responseCode P 0x03#8) p
  | .sendMouseAbs p => .command 0x04#8 p
  | .sendMouseAbsResp p => .command (responseCode P 0x04#8) p
  | .sendMouseRel p => .command 0x05#8 p
  | .sendMouseRelResp p => .command (responseCode P 0x05#8) p
  | .reset p => .command P.cmdReset p
  | .resetResp p => .command (responseCode P P.cmdReset) p

/-- What the host presents for an instruction, at the block's own parameters. -/
def encode (i : Instr) : Request := encodeWith Config.params i

/-! ## The opcode table's own numbering -/

/-- The payload of zeros a command row takes when only its code is given: the eight bytes of a keyboard report for
SendKeyboardGeneral (R67), nothing for the others (DESIGN CHOICE, log 21). -/
def zeroPayload (code : Byte) : List Byte :=
  if code = Config.cmdKeyboardGeneral then List.replicate Config.params.kbReportLen 0x00#8 else []

/-- What the host presents for a row of spec/opcode_table.json with the bits `w`: a 16-bit row is an operation word with nothing on
its operand ports, stored bit 15 first (R69); an 8-bit row is a wire command with a payload of zeros. -/
def tableRequest (nbits w : Nat) : Option Request :=
  match nbits with
  | 16 => some (.op (opWordOfBytes (BitVec.ofNat 8 (w / 256)) (BitVec.ofNat 8 w)) noOperand)
  | 8 => some (.command (BitVec.ofNat 8 w) (zeroPayload (BitVec.ofNat 8 w)))
  | _ => none

/-- The instruction the decoder reads from a row's bits. -/
def decodeTableWord (nbits w : Nat) : Option Instr :=
  match tableRequest nbits w with
  | none => none
  | some r =>
    match decode r with
    | .ok i => some i
    | .error _ => none

end Sys2Proof
end

