-- ==== Sys2Proof/Machine/State.lean ====
section
/-!
DEFINITION. The state of the block (R20: "exactly the following"), the interface of one transaction (R37), and the reasons a step stops.
Everything is plain data. The block has no program counter, flags, control registers or memory (R26, R27, R28, R41).
-/

namespace Sys2Proof.Machine

/-- RX_PHASE: the next byte the receiver expects (R30). -/
inductive RxPhase where
  /-- sync_hi; also the idle state between frames -/
  | h0
  /-- sync_lo -/
  | h1
  /-- address -/
  | h2
  /-- command -/
  | h3
  /-- length -/
  | h4
  /-- payload byte number RX_IDX -/
  | pay
  /-- the checksum byte -/
  | csum
  deriving DecidableEq, Repr

/-- The two kinds of ProtocolError (R104, R146). -/
inductive ProtocolKind where
  | errorCode
  | commandMismatch
  deriving DecidableEq, Repr

/-- The error statuses with the information each records (R146). They are returned by an operation and stop nothing (R157, R158). -/
inductive Error where
  /-- ENCODE: the payload length (R147). -/
  | payloadTooLong (length : Nat)
  /-- DECODE, RX_END: the bytes of the frame present (R150). -/
  | truncated (received : Nat)
  /-- DECODE with the five header bytes, RX_BYTE without them (log 15); the bytes consumed (R148). -/
  | headerError (header : Option (List Byte)) (consumed : Nat)
  /-- DECODE, RX_BYTE: both checksums and the bytes consumed (R149). -/
  | checksumError (received computed : Byte) (consumed : Nat)
  /-- MATCH_RESPONSE: the kind and the offending byte (R151). -/
  | protocolError (kind : ProtocolKind) (code : Byte)
  /-- Any reserved operation word: the word (R152). -/
  | reservedOp (word : OpWord)
  deriving DecidableEq, Repr

/-- The one status every operation returns (R27, R146). -/
inductive Status where
  | ok
  | error (e : Error)
  deriving DecidableEq, Repr

/-- The result value of an operation (R70). -/
inductive Result where
  /-- `(OK, none)`, and every error (R156). -/
  | nothing
  /-- ENCODE, KEY_DOWN, KEY_UP: the emitted frame bytes. -/
  | emitted (w : List Byte)
  /-- DECODE: the Frame and the rest of the input. -/
  | decoded (f : Frame) (rest : List Byte)
  /-- RX_BYTE on the checksum byte: the completed Frame. -/
  | received (f : Frame)
  /-- CLASSIFY: the error-code byte, which is data and not a status (R101, R153). -/
  | code (c : Byte)
  deriving DecidableEq, Repr

/-- What one transaction returns: a status, a result value and zero or more emitted bytes (R37). -/
structure Response where
  status : Status
  result : Result
  emitted : List Byte
  deriving DecidableEq, Repr

/-- What can come to the block from outside. -/
inductive HostEvent where
  /-- The host presents a transaction (R37). -/
  | request (r : Request)
  /-- Reset, an event of the block and not an operation word (R170; log 16). -/
  | reset
  /-- An agent other than the host presents a transaction, which a model must refuse (R179, U12; log 17). -/
  | otherAgent (r : Request)
  deriving DecidableEq, Repr

/-- Why the machine stops with a fault. -/
inductive Fault where
  /-- Raised by RX_BYTE in phase PAY with RX_IDX = 255: RX_BUF has no element 255 (R20). Safe: no reachable state does this (R32), and
  where the machine would go on the model stops (log 6). -/
  | rxBufIndex
  deriving DecidableEq, Repr

/-- Why the machine has no next state without being at fault. -/
inductive Refusal where
  /-- Raised by exec's arm of an instruction that has no meaning yet. Safe: the model stops where the hardware goes on. -/
  | notModelled (mnemonic : String)
  /-- Raised by step on a transaction of a second agent, which "a model must refuse" (R179, U12). Safe: the model gives such a use no
  meaning (log 17). -/
  | secondAgent
  deriving DecidableEq, Repr

/-- The state: the registers of R20, then the interface of a transaction, which is the model's own (R35; log 7). -/
structure State where
  /-- KB_MOD (R22). -/
  kbMod : Byte
  /-- KB_SLOT[0..5], `N_SLOTS` registers (R9, R23). -/
  kbSlot : Vector Byte Config.nSlots
  /-- RX_PHASE (R30). -/
  rxPhase : RxPhase
  /-- RX_SUM: the 8-bit sum of the bytes of the current frame so far (R29). -/
  rxSum : Byte
  /-- RX_SYNC_OK: every sync byte so far matched (R29). -/
  rxSyncOk : Bool
  /-- RX_ADDR: header byte 2 (R29). -/
  rxAddr : Byte
  /-- RX_CMD: header byte 3 (R29). -/
  rxCmd : Byte
  /-- RX_LEN: header byte 4 (R29). -/
  rxLen : Byte
  /-- RX_IDX: the number of payload bytes received (R29). -/
  rxIdx : Byte
  /-- RX_BUF[0..254]: the payload bytes, `MAX_PAYLOAD` of them (R9, R20, R29). -/
  rxBuf : Vector Byte Config.maxPayload
  /-- The model's own: the events the host has presented and the block has not taken, oldest first (R26, R47; log 7). -/
  host : List HostEvent
  /-- The model's own: what the last transaction returned (R27, R37; log 7). No operation reads it. -/
  response : Option Response
  /-- The model's own: the transmit stream, every byte emitted so far in order (R39, R47; log 7). No operation reads it. -/
  tx : List Byte
  deriving DecidableEq, Repr

/-- The machine right after reset (R20, R170): every register at its reset value, RX_BUF, which the spec leaves unspecified, at zero
(DESIGN CHOICE, log 5); nothing emitted (R172), nothing returned, nothing presented (log 10). -/
def State.reset : State where
  kbMod := 0x00#8
  kbSlot := Vector.replicate Config.nSlots 0x00#8
  rxPhase := .h0
  rxSum := 0x00#8
  rxSyncOk := true
  rxAddr := 0x00#8
  rxCmd := 0x00#8
  rxLen := 0x00#8
  rxIdx := 0x00#8
  rxBuf := Vector.replicate Config.maxPayload 0x00#8
  host := []
  response := none
  tx := []

end Sys2Proof.Machine
end

