-- ==== Sys2Proof/Machine/Ops.lean ====
section
/-!
DEFINITION. The operations the instructions share: byte sums and wire frames (R13, R87, R88), the ways a transaction ends (R14, R37),
the error status as one operation (R156, R157), and the reset event (R170).
-/

namespace Sys2Proof.Machine

/-! ## Byte sequences and frames on the wire -/

/-- `sum8`, the sum of the bytes mod 256 (R13). -/
def sum8 : List Byte → Byte
  | [] => 0x00#8
  | b :: bs => b + sum8 bs

/-- The length byte of a payload (R60). -/
def lengthByte (p : List Byte) : Byte := BitVec.ofNat 8 p.length

/-- The five header bytes of a frame (R42, R56). -/
def header (P : Config.Params) (f : Frame) : List Byte :=
  [P.syncHi, P.syncLo, f.addr, f.cmd, lengthByte f.payload]

/-- The checksum of a frame: the sum of all header and payload bytes (R58, R87). -/
def checksum (P : Config.Params) (f : Frame) : Byte := sum8 (header P f ++ f.payload)

/-- The wire form of a frame (R88). -/
def wire (P : Config.Params) (f : Frame) : List Byte := header P f ++ f.payload ++ [checksum P f]

/-! ## How a transaction ends -/

/-- `return (OK, r)` with nothing emitted (R14). -/
def returnOk (r : Result) (s : State) : State := { s with response := some ⟨.ok, r, []⟩ }

/-- `emit(w)`, then `return (OK, w)`: the bytes go onto the transmit stream in order, after all earlier ones (R14, R47). -/
def emitOk (w : List Byte) (s : State) : State :=
  { s with tx := s.tx ++ w, response := some ⟨.ok, .emitted w, w⟩ }

/-- `raise e`: the status goes back to the host; nothing is emitted, no result is returned, no register is written (R156, R157). This
is the block's only exception mechanism: it saves no state and transfers control nowhere (R157), and there is no return from it
(R158). -/
def raise (e : Error) (s : State) : State := { s with response := some ⟨.error e, .nothing, []⟩ }

/-- The end of an operation whose outcome is a result or an error and which changes no register. -/
def finish (o : Except Error Result) (s : State) : State :=
  match o with
  | .ok r => returnOk r s
  | .error e => raise e s

/-- ENCODE's body, which the wire requests share (R89, R130): the frame with the constant address, emitted whole or not at all (R45). -/
def sendFrame (P : Config.Params) (cmd : Byte) (payload : List Byte) (s : State) : State :=
  if payload.length > P.maxPayload.val then raise (.payloadTooLong payload.length) s
  else emitOk (wire P ⟨P.addr, cmd, payload⟩) s

/-! ## Registers -/

/-- Every register of the block at its reset value, the partial frame discarded without a status (R170, R173); the transmit stream
and the host's later events are not the block's (R35; log 16). -/
def resetRegisters (s : State) : State :=
  { State.reset with host := s.host, tx := s.tx }

/-- RX_PHASE back to H0, as at the end of a frame and on every receiver error (R98, R99, R156). -/
def rxIdle (s : State) : State := { s with rxPhase := .h0 }

end Sys2Proof.Machine
end

