-- ==== Sys2Proof/Machine/Operands.lean ====
section
/-!
DEFINITION. What the operations read of their operands: the candidate frame at the front of a byte sequence (R91), the shape of a
response frame (R101, R103), a key code's modifier bit (R112) and the keyboard report (R118).
-/

namespace Sys2Proof.Machine

/-! ## A received byte sequence -/

/-- The parts of the candidate frame at the front of a byte sequence (R91). -/
structure Candidate where
  /-- bytes 0 to 4 -/
  headerBytes : List Byte
  syncHi : Byte
  syncLo : Byte
  /-- the address, the command and the payload -/
  frame : Frame
  /-- the byte at offset 5 + L -/
  received : Byte
  /-- `sum8` of the first 5 + L bytes -/
  computed : Byte
  /-- 6 + L -/
  consumed : Nat
  /-- the bytes after the frame -/
  rest : List Byte
  deriving DecidableEq, Repr

/-- The candidate frame, if the sequence holds the 6 + L bytes its length byte announces (R59, R91). -/
def candidate (s : List Byte) : Option Candidate :=
  match s with
  | b0 :: b1 :: b2 :: b3 :: b4 :: body =>
    match body.drop b4.toNat with
    | [] => none
    | cs :: rest =>
      let payload := body.take b4.toNat
      some
        { headerBytes := [b0, b1, b2, b3, b4]
          syncHi := b0
          syncLo := b1
          frame := ⟨b2, b3, payload⟩
          received := cs
          computed := sum8 ([b0, b1, b2, b3, b4] ++ payload)
          consumed := 6 + b4.toNat
          rest := rest }
  | _ => none

/-- DECODE's outcome: the frame's extent first, then its header, then its checksum (R92 to R96). -/
def parseFrame (P : Config.Params) (s : List Byte) : Except Error Result :=
  match candidate s with
  | none => .error (.truncated s.length)
  | some c =>
    if c.syncHi ≠ P.syncHi ∨ c.syncLo ≠ P.syncLo ∨ c.frame.addr ≠ P.addr then
      .error (.headerError (some c.headerBytes) c.consumed)
    else if c.received ≠ c.computed then
      .error (.checksumError c.received c.computed c.consumed)
    else .ok (.decoded c.frame c.rest)

/-! ## A response frame -/

/-- The byte 0xE6, "operation failed" (R66). -/
def operationFailed : Byte := 0xE6#8

/-- CLASSIFY's result (R101, R103). -/
def classifyCode (P : Config.Params) (f : Frame) : Byte :=
  if isResponseCode P f.cmd then
    match f.payload with
    | [] => operationFailed
    | [e] => e
    | _ :: _ :: _ => 0x00#8
  else operationFailed

/-- The error code MATCH_RESPONSE tests: CLASSIFY's, but a one-byte payload is no error code when the request code is itself a
response code (R104, C2, D11). -/
def matchCode (P : Config.Params) (req : Byte) (f : Frame) : Byte :=
  if isResponseCode P req && decide (f.payload.length = 1) && isResponseCode P f.cmd then 0x00#8 else classifyCode P f

/-- MATCH_RESPONSE's outcome: the error code is tested before the command (R104, R155). -/
def checkResponse (P : Config.Params) (req : Byte) (f : Frame) : Except Error Result :=
  if matchCode P req f ≠ 0x00#8 then .error (.protocolError .errorCode (matchCode P req f))
  else if f.cmd ≠ responseCode P req then .error (.protocolError .commandMismatch f.cmd)
  else .ok .nothing

/-! ## A key code -/

/-- Whether a key code is one of the eight modifier codes (R112). -/
def isModifier (P : Config.Params) (c : Byte) : Bool :=
  decide (P.modBase.toNat ≤ c.toNat ∧ c.toNat < P.modBase.toNat + P.nMod.val)

/-- `1 << k` for the modifier code `MOD_BASE + k` (R12, R112). -/
def modifierBit (P : Config.Params) (c : Byte) : Byte := 1#8 <<< (c.toNat - P.modBase.toNat)

/-- KB_MOD after a modifier press (R113). -/
def pressModifier (P : Config.Params) (c m : Byte) : Byte :=
  match P.modUpdate with
  | .setClear => m ||| modifierBit P c
  | .xor => m ^^^ modifierBit P c

/-- KB_MOD after a modifier release (R113). -/
def releaseModifier (P : Config.Params) (c m : Byte) : Byte :=
  match P.modUpdate with
  | .setClear => m &&& ~~~modifierBit P c
  | .xor => m ^^^ modifierBit P c

/-- The press scan over slots in index order: the first that is empty or holds the code takes it; if there is none, nothing changes
(R114, R115). -/
def pressScan (c : Byte) : List Byte → List Byte
  | [] => []
  | x :: xs => if x = 0x00#8 ∨ x = c then c :: xs else x :: pressScan c xs

/-- The release scan: every slot holding the code becomes empty, none is moved (R117). -/
def releaseScan (c : Byte) : List Byte → List Byte
  | [] => []
  | x :: xs => (if x = c then 0x00#8 else x) :: releaseScan c xs

/-- A press keeps the number of slots. -/
@[simp] theorem pressScan_length (c : Byte) (l : List Byte) : (pressScan c l).length = l.length := by
  induction l with
  | nil => rfl
  | cons x xs ih => simp only [pressScan]; split <;> simp [ih]

/-- A release keeps the number of slots. -/
@[simp] theorem releaseScan_length (c : Byte) (l : List Byte) : (releaseScan c l).length = l.length := by
  induction l with
  | nil => rfl
  | cons x xs ih => simp [releaseScan, ih]

/-- What a scan makes of KB_SLOT: it goes over the slots in use, `N_SLOTS` of them, in index order, and leaves the others (R114, R117;
at the spec's value all six are in use). -/
def scanSlots (P : Config.Params) (scan : List Byte → List Byte) (v : Vector Byte Config.nSlots)
    (h : ∀ l, (scan l).length = l.length) : Vector Byte Config.nSlots :=
  ⟨(scan (v.toList.take P.nSlots) ++ v.toList.drop P.nSlots).toArray, by have := P.nSlots.isLt; simp [h]; omega⟩

/-- KB_SLOT after a press (R114). -/
def pressSlots (P : Config.Params) (c : Byte) (v : Vector Byte Config.nSlots) : Vector Byte Config.nSlots :=
  scanSlots P (pressScan c) v (pressScan_length c)

/-- KB_SLOT after a release (R117). -/
def releaseSlots (P : Config.Params) (c : Byte) (v : Vector Byte Config.nSlots) : Vector Byte Config.nSlots :=
  scanSlots P (releaseScan c) v (releaseScan_length c)

/-- The keyboard report `kb_report()`: KB_MOD, the reserved 0x00, the slots in use in order, as `KB_REPORT_LEN` bytes (R67, R118; at
the spec's values these are just eight, and another length would cut the report or fill it up with 0x00, log 19). -/
def kbReport (P : Config.Params) (s : State) : List Byte :=
  (s.kbMod :: 0x00#8 :: s.kbSlot.toList.take P.nSlots).takeD P.kbReportLen 0x00#8

end Sys2Proof.Machine
end

