-- ==== Sys2Proof/Machine/Codec.lean ====
section
/-!
DEFINITION. The frame codec's operations on whole operands: ENCODE, DECODE, CLASSIFY, MATCH_RESPONSE (R86). None of them reads or writes
a register of the block (R20, R48).
-/

namespace Sys2Proof.Machine

/-- ENCODE (R89). -/
def execEncode (cmd : Byte) (payload : List Byte) (s : State) : Host.Outcome State Fault Refusal :=
  .next (sendFrame Config.params cmd payload s)

/-- DECODE (R92). -/
def execDecode (input : List Byte) (s : State) : Host.Outcome State Fault Refusal :=
  .next (finish (parseFrame Config.params input) s)

/-- CLASSIFY (R101). -/
def execClassify (f : Frame) (s : State) : Host.Outcome State Fault Refusal :=
  .next (returnOk (.code (classifyCode Config.params f)) s)

/-- MATCH_RESPONSE (R104). -/
def execMatchResponse (req : Byte) (f : Frame) (s : State) : Host.Outcome State Fault Refusal :=
  .next (finish (checkResponse Config.params req f) s)

end Sys2Proof.Machine
end

