-- ==== Sys2Proof/Machine/Keyboard.lean ====
section
/-!
DEFINITION. The keyboard-state encoder: KEY_DOWN and KEY_UP (R110 to R125). Each updates the modifier byte or the slots and then emits the
whole keyboard state as one frame, also when nothing changed (R121, R123).
-/

namespace Sys2Proof.Machine

/-- The keyboard registers after a press (R113, R114, R119). -/
def pressKey (P : Config.Params) (c : Byte) (s : State) : State :=
  if isModifier P c then { s with kbMod := pressModifier P c s.kbMod }
  else { s with kbSlot := pressSlots P c s.kbSlot }

/-- The keyboard registers after a release (R113, R117, R120). -/
def releaseKey (P : Config.Params) (c : Byte) (s : State) : State :=
  if isModifier P c then { s with kbMod := releaseModifier P c s.kbMod }
  else { s with kbSlot := releaseSlots P c s.kbSlot }

/-- The keyboard-state frame of the current registers, on the wire (R67, R118). -/
def kbFrame (P : Config.Params) (s : State) : List Byte :=
  wire P ⟨P.addr, Config.cmdKeyboardGeneral, kbReport P s⟩

/-- Emit the keyboard-state frame of the registers as they now stand (R118, R121). -/
def sendKbState (P : Config.Params) (s : State) : State := emitOk (kbFrame P s) s

/-- The state after a press: the registers updated, then their frame emitted (R119). -/
def keyDownState (P : Config.Params) (c : Byte) (s : State) : State := sendKbState P (pressKey P c s)

/-- The state after a release: the registers updated, then their frame emitted (R120). -/
def keyUpState (P : Config.Params) (c : Byte) (s : State) : State := sendKbState P (releaseKey P c s)

/-- KEY_DOWN (R119). -/
def execKeyDown (c : Byte) (s : State) : Host.Outcome State Fault Refusal :=
  .next (keyDownState Config.params c s)

/-- KEY_UP (R120). -/
def execKeyUp (c : Byte) (s : State) : Host.Outcome State Fault Refusal :=
  .next (keyUpState Config.params c s)

end Sys2Proof.Machine
end

