-- ==== Sys2Proof/Machine/Receiver.lean ====
section
/-!
DEFINITION. The byte-serial receiver: RX_BYTE and RX_END (R98, R99) over the receiver registers (R29, R30).
-/

namespace Sys2Proof.Machine

/-- Take one payload byte: `RX_BUF[RX_IDX] <- b; RX_IDX <- RX_IDX + 1`, and on to the checksum when RX_IDX has reached RX_LEN (R98).
RX_BUF has the elements 0 to `MAX_PAYLOAD - 1` (R20), so a write past them stops the machine (log 6). -/
def rxPayload (P : Config.Params) (b : Byte) (s : State) : Host.Outcome State Fault Refusal :=
  if h : s.rxIdx.toNat < P.maxPayload.val then
    .next (returnOk .nothing
      { s with
        rxSum := s.rxSum + b
        rxBuf := s.rxBuf.set s.rxIdx.toNat b (Nat.lt_of_lt_of_le h (Nat.le_of_lt_succ P.maxPayload.isLt))
        rxIdx := s.rxIdx + 1#8
        rxPhase := if s.rxIdx + 1#8 = s.rxLen then .csum else .pay })
  else .fault .rxBufIndex

/-- The frame the receiver registers hold: `{RX_ADDR, RX_CMD, RX_BUF[0 .. RX_LEN)}` (R98). -/
def rxFrame (s : State) : Frame := ⟨s.rxAddr, s.rxCmd, s.rxBuf.toList.take s.rxLen.toNat⟩

/-- What the checksum byte decides: the header check first, then the checksum (R93, R94, R98). -/
def rxVerdict (P : Config.Params) (b : Byte) (s : State) : Except Error Result :=
  if s.rxSyncOk = false ∨ s.rxAddr ≠ P.addr then .error (.headerError none (6 + s.rxLen.toNat))
  else if b ≠ s.rxSum then .error (.checksumError b s.rxSum (6 + s.rxLen.toNat))
  else .ok (.received (rxFrame s))

/-- RX_BYTE's step of the receiver, phase by phase (R98). -/
def rxStep (P : Config.Params) (b : Byte) (s : State) : Host.Outcome State Fault Refusal :=
  match s.rxPhase with
  | .h0 =>
    .next (returnOk .nothing { s with rxSum := b, rxSyncOk := decide (b = P.syncHi), rxPhase := .h1 })
  | .h1 =>
    .next (returnOk .nothing
      { s with rxSum := s.rxSum + b, rxSyncOk := s.rxSyncOk && decide (b = P.syncLo), rxPhase := .h2 })
  | .h2 => .next (returnOk .nothing { s with rxSum := s.rxSum + b, rxAddr := b, rxPhase := .h3 })
  | .h3 => .next (returnOk .nothing { s with rxSum := s.rxSum + b, rxCmd := b, rxPhase := .h4 })
  | .h4 =>
    .next (returnOk .nothing
      { s with
        rxSum := s.rxSum + b
        rxLen := b
        rxIdx := 0x00#8
        rxPhase := if b = 0x00#8 then .csum else .pay })
  | .pay => rxPayload P b s
  | .csum => .next (finish (rxVerdict P b s) (rxIdle s))

/-- How many bytes of the current frame the receiver has taken (R99). -/
def rxCount (s : State) : Nat :=
  match s.rxPhase with
  | .h0 => 0
  | .h1 => 1
  | .h2 => 2
  | .h3 => 3
  | .h4 => 4
  | .pay => 5 + s.rxIdx.toNat
  | .csum => 5 + s.rxLen.toNat

/-- RX_BYTE (R98). -/
def execRxByte (b : Byte) (s : State) : Host.Outcome State Fault Refusal := rxStep Config.params b s

/-- RX_END (R99): nothing to end at H0; otherwise Truncated and back to H0. -/
def execRxEnd (s : State) : Host.Outcome State Fault Refusal :=
  if s.rxPhase = .h0 then .next (returnOk .nothing s)
  else .next (raise (.truncated (rxCount s)) (rxIdle s))

end Sys2Proof.Machine
end

