-- ==== Sys2Proof/Machine/WireCommands.lean ====
section
/-!
DEFINITION. The wire commands (42_wire_commands.md). "The block's semantics of every command is: ENCODE builds its frame, DECODE parses
it, CLASSIFY and MATCH_RESPONSE read its response" (R130). So a request command is the building and emitting of its frame, and a
response command, whose bytes DECODE or the receiver has parsed, is the reading of its frame against its request (DEDUCED, log 11).
What the bridge does with a command is outside the block (R130).
-/

namespace Sys2Proof.Machine

/-- The reading of a response with the code `req | 0x80` and the given payload as the answer to the request `req` (R130, R137). -/
def readResponse (P : Config.Params) (req : Byte) (payload : List Byte) (s : State) : State :=
  finish (checkResponse P req ⟨P.addr, responseCode P req, payload⟩) s

/-- GetInfo, code 0x01 (R131). -/
def execGetInfo (payload : List Byte) (s : State) : Host.Outcome State Fault Refusal :=
  .next (sendFrame Config.params 0x01#8 payload s)

/-- GetInfo's response, code 0x81 (R137). -/
def execGetInfoResp (payload : List Byte) (s : State) : Host.Outcome State Fault Refusal :=
  .next (readResponse Config.params 0x01#8 payload s)

/-- SendKeyboardGeneral, code 0x02 (R132). -/
def execSendKeyboardGeneral (payload : List Byte) (s : State) : Host.Outcome State Fault Refusal :=
  .next (sendFrame Config.params 0x02#8 payload s)

/-- SendKeyboardGeneral's response, code 0x82 (R138). -/
def execSendKeyboardGeneralResp (payload : List Byte) (s : State) : Host.Outcome State Fault Refusal :=
  .next (readResponse Config.params 0x02#8 payload s)

/-- SendKeyboardMedia, code 0x03 (R133). -/
def execSendKeyboardMedia (payload : List Byte) (s : State) : Host.Outcome State Fault Refusal :=
  .next (sendFrame Config.params 0x03#8 payload s)

/-- SendKeyboardMedia's response, code 0x83 (R139). -/
def execSendKeyboardMediaResp (payload : List Byte) (s : State) : Host.Outcome State Fault Refusal :=
  .next (readResponse Config.params 0x03#8 payload s)

/-- SendMouseAbs, code 0x04 (R134). -/
def execSendMouseAbs (payload : List Byte) (s : State) : Host.Outcome State Fault Refusal :=
  .next (sendFrame Config.params 0x04#8 payload s)

/-- SendMouseAbs's response, code 0x84 (R140). -/
def execSendMouseAbsResp (payload : List Byte) (s : State) : Host.Outcome State Fault Refusal :=
  .next (readResponse Config.params 0x04#8 payload s)

/-- SendMouseRel, code 0x05 (R135). -/
def execSendMouseRel (payload : List Byte) (s : State) : Host.Outcome State Fault Refusal :=
  .next (sendFrame Config.params 0x05#8 payload s)

/-- SendMouseRel's response, code 0x85 (R141). -/
def execSendMouseRelResp (payload : List Byte) (s : State) : Host.Outcome State Fault Refusal :=
  .next (readResponse Config.params 0x05#8 payload s)

/-- Reset, code `CMD_RESET` (R136): a frame like any other; no register of the block changes (R174). -/
def execReset (payload : List Byte) (s : State) : Host.Outcome State Fault Refusal :=
  .next (sendFrame Config.params Config.params.cmdReset payload s)

/-- Reset's response, code `CMD_RESET | 0x80` (R142). -/
def execResetResp (payload : List Byte) (s : State) : Host.Outcome State Fault Refusal :=
  .next (readResponse Config.params Config.params.cmdReset payload s)

end Sys2Proof.Machine
end

