-- ==== Sys2Proof/Machine/Dispatch.lean ====
section
/-!
DEFINITION. The one dispatch from an instruction to its meaning, one arm per constructor of Instr.
-/

namespace Sys2Proof.Machine

def exec (i : Instr) (s : State) : Host.Outcome State Fault Refusal :=
  match i with
  | .encode cmd payload => Sys2Proof.Machine.execEncode cmd payload s
  | .decode input => Sys2Proof.Machine.execDecode input s
  | .classify frame => Sys2Proof.Machine.execClassify frame s
  | .matchResponse req frame => Sys2Proof.Machine.execMatchResponse req frame s
  | .keyDown code => Sys2Proof.Machine.execKeyDown code s
  | .keyUp code => Sys2Proof.Machine.execKeyUp code s
  | .rxByte b => Sys2Proof.Machine.execRxByte b s
  | .rxEnd => Sys2Proof.Machine.execRxEnd s
  | .getInfo payload => Sys2Proof.Machine.execGetInfo payload s
  | .getInfoResp payload => Sys2Proof.Machine.execGetInfoResp payload s
  | .sendKeyboardGeneral payload => Sys2Proof.Machine.execSendKeyboardGeneral payload s
  | .sendKeyboardGeneralResp payload => Sys2Proof.Machine.execSendKeyboardGeneralResp payload s
  | .sendKeyboardMedia payload => Sys2Proof.Machine.execSendKeyboardMedia payload s
  | .sendKeyboardMediaResp payload => Sys2Proof.Machine.execSendKeyboardMediaResp payload s
  | .sendMouseAbs payload => Sys2Proof.Machine.execSendMouseAbs payload s
  | .sendMouseAbsResp payload => Sys2Proof.Machine.execSendMouseAbsResp payload s
  | .sendMouseRel payload => Sys2Proof.Machine.execSendMouseRel payload s
  | .sendMouseRelResp payload => Sys2Proof.Machine.execSendMouseRelResp payload s
  | .reset payload => Sys2Proof.Machine.execReset payload s
  | .resetResp payload => Sys2Proof.Machine.execResetResp payload s

end Sys2Proof.Machine
end

