-- ==== Sys2Proof/Machine/Transaction.lean ====
section
/-!
DEFINITION. How the block takes what comes from outside: the host's events in issue order (R26, R47), a reserved operation word (R71), the
reset event (R170), a second agent (R179), and nothing presented (R160).
-/

namespace Sys2Proof.Machine

/-- The block takes the oldest event it has been given and runs the instruction it presents with `run`, in the state without that
event. With nothing presented the block does nothing: "it acts only when the host issues an operation" (R160; log 9). -/
def transaction (run : Instr → State → Host.Outcome State Fault Refusal) (s : State) : Host.Outcome State Fault Refusal :=
  match s.host with
  | [] => .next s
  | .reset :: later => .next (resetRegisters { s with host := later })
  | .otherAgent _ :: _ => .refused .secondAgent
  | .request r :: later =>
    match decode r with
    | .ok i => run i { s with host := later }
    | .error (.reservedOp w) => .next (raise (.reservedOp w) { s with host := later })

/-- The state in which the row's instruction is the next event taken (log 10, log 21). -/
def presentRow (nbits w : Nat) (s : State) : State :=
  match tableRequest nbits w with
  | none => s
  | some r => { s with host := .request r :: s.host }

end Sys2Proof.Machine
end

