-- ==== Sys2Proof/Machine/Step.lean ====
section
/-!
DEFINITION. One step of the machine: one event from outside, taken whole (R46).
-/

namespace Sys2Proof.Machine

/-- One transaction of the block (R37, R46, R47). -/
def step (s : State) : Host.Outcome State Fault Refusal := transaction exec s

/-- The state with a row of spec/opcode_table.json presented by the host as its next transaction (log 10). -/
def State.withFetchWord (s : State) (nbits w : Nat) : State := presentRow nbits w s

end Sys2Proof.Machine
end

