-- ==== Sys2Proof/Machine/Flags.lean ====
section
/-!
DEFINITION. The block has no flags or condition codes (R27); in their place every operation returns a status. This file holds the
statuses' numbers (R146) and the names of the bridge's error bytes (R66).
-/

namespace Sys2Proof.Machine

/-- The numeric code of a status (R146); 7 is never returned. -/
def statusCode : Status → Nat
  | .ok => 0
  | .error (.payloadTooLong _) => 1
  | .error (.truncated _) => 2
  | .error (.headerError _ _) => 3
  | .error (.checksumError _ _ _) => 4
  | .error (.protocolError _ _) => 5
  | .error (.reservedOp _) => 6

/-- The bridge's error bytes by name (R66). They are data, not statuses of the block (R153). -/
inductive ErrorByte where
  | success
  | timeout
  | badHeader
  | badCommand
  | badChecksum
  | badParameter
  | operationFailed
  /-- any other value: unnamed, not success (R66, R102) -/
  | unnamed (value : Byte)
  deriving DecidableEq, Repr

/-- How an error byte reads (R66, R102). -/
def errorByte (c : Byte) : ErrorByte :=
  match c.toNat with
  | 0x00 => .success
  | 0xE1 => .timeout
  | 0xE2 => .badHeader
  | 0xE3 => .badCommand
  | 0xE4 => .badChecksum
  | 0xE5 => .badParameter
  | 0xE6 => .operationFailed
  | _ => .unnamed c

end Sys2Proof.Machine
end

