-- ==== Sys2Proof/Safety.lean ====
section
/-!
DEFINITION. What counts as a safe state and a safe run, in the terms the claims use: the invariants of the keyboard slots (R24) and of the
receiver (R32), and the host's obligations (R177, R178, R179).
-/

namespace Sys2Proof.Safety

open Sys2Proof.Machine

/-! ## The keyboard slots (R24) -/

/-- No slot holds a modifier code (R24, clause 1). -/
def SlotsHoldNoModifier (P : Config.Params) (s : State) : Prop :=
  ∀ c ∈ s.kbSlot.toList, isModifier P c = false

/-- A slot never goes from one non-zero code directly to another (R24, clause 3). -/
def SlotsMoveThroughEmpty (s t : State) : Prop :=
  ∀ i : Fin 6, t.kbSlot[i] = s.kbSlot[i] ∨ s.kbSlot[i] = 0x00#8 ∨ t.kbSlot[i] = 0x00#8

/-! ## The receiver (R32) -/

/-- RX_IDX against RX_LEN in the phases that use them (R32). -/
def RxCounts (s : State) : Prop :=
  (s.rxPhase = .pay → s.rxIdx.toNat < s.rxLen.toNat) ∧ (s.rxPhase = .csum → s.rxIdx = s.rxLen)

/-- Whether the sync bytes among the first bytes of a frame match (R29). -/
def syncMatches (P : Config.Params) : List Byte → Bool
  | [] => true
  | [b0] => decide (b0 = P.syncHi)
  | b0 :: b1 :: _ => decide (b0 = P.syncHi) && decide (b1 = P.syncLo)

/-- The receiver registers hold the partly received frame whose bytes so far are `bs` (R29, R32): as many bytes as the phase says, their
sum in RX_SUM, the sync comparison in RX_SYNC_OK, the header bytes and the payload bytes in their registers. -/
def RxHolds (P : Config.Params) (bs : List Byte) (s : State) : Prop :=
  bs.length = rxCount s ∧
  RxCounts s ∧
  (bs ≠ [] → s.rxSum = sum8 bs ∧ s.rxSyncOk = syncMatches P bs) ∧
  (∀ b, bs[2]? = some b → s.rxAddr = b) ∧
  (∀ b, bs[3]? = some b → s.rxCmd = b) ∧
  (∀ b, bs[4]? = some b → s.rxLen = b) ∧
  (5 ≤ bs.length → bs.drop 5 = s.rxBuf.toList.take s.rxIdx.toNat)

/-- The invariant of the machine: the slots hold no modifier code, and the receiver holds some partly received frame. -/
def Inv (s : State) : Prop :=
  SlotsHoldNoModifier Config.params s ∧ ∃ bs, RxHolds Config.params bs s

/-! ## Feeding the receiver (R100) -/

/-- Feed bytes with RX_BYTE until one returns a Frame or an error, then RX_END if the bytes ran out first (R100). The answer is the
response that ended the frame, the bytes not fed, and the state reached. -/
def feed : List Byte → State → Option (Response × List Byte × State)
  | [], s =>
    match exec .rxEnd s with
    | .next t => t.response.map (fun r => (r, [], t))
    | _ => none
  | b :: bs, s =>
    match exec (.rxByte b) s with
    | .next t =>
      if t.response = some ⟨.ok, .nothing, []⟩ then feed bs t
      else t.response.map (fun r => (r, bs, t))
    | _ => none

/-! ## The host's obligations -/

/-- Only the one host presents transactions (R38, R179). -/
def singleHost (es : List HostEvent) : Bool :=
  es.all fun e =>
    match e with
    | .otherAgent _ => false
    | .request _ => true
    | .reset => true

/-- The operations that put a request frame on the transmit stream (R40). -/
def sendsFrame : Instr → Bool
  | .encode _ p | .getInfo p | .sendKeyboardGeneral p | .sendKeyboardMedia p | .sendMouseAbs p | .sendMouseRel p | .reset p =>
    decide (p.length ≤ Config.params.maxPayload.val)
  | .keyDown _ | .keyUp _ => true
  | .decode _ | .classify _ | .matchResponse _ _ | .rxByte _ | .rxEnd | .getInfoResp _ | .sendKeyboardGeneralResp _
  | .sendKeyboardMediaResp _ | .sendMouseAbsResp _ | .sendMouseRelResp _ | .resetResp _ => false

/-- The request code and the response frame that an operation checks against each other (R104, R137 to R142). -/
def checkedResponse : Instr → Option (Byte × Frame)
  | .matchResponse q f => some (q, f)
  | .getInfoResp p => some (0x01#8, ⟨Config.params.addr, responseCode Config.params 0x01#8, p⟩)
  | .sendKeyboardGeneralResp p => some (0x02#8, ⟨Config.params.addr, responseCode Config.params 0x02#8, p⟩)
  | .sendKeyboardMediaResp p => some (0x03#8, ⟨Config.params.addr, responseCode Config.params 0x03#8, p⟩)
  | .sendMouseAbsResp p => some (0x04#8, ⟨Config.params.addr, responseCode Config.params 0x04#8, p⟩)
  | .sendMouseRelResp p => some (0x05#8, ⟨Config.params.addr, responseCode Config.params 0x05#8, p⟩)
  | .resetResp p =>
    some (Config.params.cmdReset, ⟨Config.params.addr, responseCode Config.params Config.params.cmdReset, p⟩)
  | .encode _ _ | .decode _ | .classify _ | .keyDown _ | .keyUp _ | .rxByte _ | .rxEnd | .getInfo _
  | .sendKeyboardGeneral _ | .sendKeyboardMedia _ | .sendMouseAbs _ | .sendMouseRel _ | .reset _ => none

/-- The operations that check a response against its request. -/
def checksResponse (i : Instr) : Bool := (checkedResponse i).isSome

/-- One transaction as the host sees it: what it issued and what the block returned (R37). -/
structure Exchange where
  instr : Instr
  response : Response
  deriving DecidableEq, Repr

/-- The transactions of a sequence of operations issued one after the other, and the state they leave; none if one stops. -/
def run : List Instr → State → Option (List Exchange × State)
  | [], s => some ([], s)
  | i :: is, s =>
    match exec i s with
    | .next t =>
      match t.response with
      | some r => (run is t).map fun (es, u) => (⟨i, r⟩ :: es, u)
      | none => none
    | .fault _ => none
    | .refused _ => none

/-- The code of the request frame an operation emitted: a frame whose command byte is a request code (R18, R62). A frame with a
response code is no request. -/
def requestSent (r : Response) : Option Byte :=
  match r.emitted with
  | _ :: _ :: _ :: c :: _ => if isResponseCode Config.params c then none else some c
  | _ => none

/-- The frame an operation received whole: DECODE's, or the one RX_BYTE completed (R92, R98). -/
def frameReceived (r : Response) : Option Frame :=
  match r.result with
  | .decoded f _ => some f
  | .received f => some f
  | .nothing => none
  | .emitted _ => none
  | .code _ => none

/-- Receiving a frame failed: DECODE, RX_BYTE or RX_END answered one of their errors (R92, R98, R99). -/
def receiveFailed (r : Response) : Bool :=
  match r.status with
  | .error (.truncated _) => true
  | .error (.headerError _ _) => true
  | .error (.checksumError _ _ _) => true
  | .error (.payloadTooLong _) => false
  | .error (.protocolError _ _) => false
  | .error (.reservedOp _) => false
  | .ok => false

/-- Where the host stands in the round trip of R177: no request outstanding, the response to a request not yet received, or received
and not yet checked. -/
inductive RoundTrip where
  | idle
  | awaiting (req : Byte)
  | received (req : Byte) (f : Frame)
  deriving DecidableEq, Repr

/-- One transaction of a host that keeps one request in flight, and none where it breaks the rule by sending a request before the last
one's round trip has ended (R177, R178, U13). The round trip ends when the frame received for the request has been checked against
that request's code, whatever the check says, or when receiving it has failed, which fails "the single in-flight operation" (R150; log 20).
Anything else the host does in between leaves it where it stands. -/
def hostMove (w : RoundTrip) (e : Exchange) : Option RoundTrip :=
  match w, requestSent e.response with
  | .idle, none => some .idle
  | .idle, some c => some (.awaiting c)
  | .awaiting c, none =>
    match frameReceived e.response with
    | some f => some (.received c f)
    | none => if receiveFailed e.response then some .idle else some (.awaiting c)
  | .received c f, none => if checkedResponse e.instr = some (c, f) then some .idle else some (.received c f)
  | .awaiting _, some _ => none
  | .received _ _, some _ => none

/-- Where a host stands after a sequence of transactions, if it has kept the rule. -/
def follow : RoundTrip → List Exchange → Option RoundTrip
  | w, [] => some w
  | w, e :: es =>
    match hostMove w e with
    | some v => follow v es
    | none => none

/-- Whether a transaction ends a round trip: one is open before it and none after it. A check or a failed receive made with no request
outstanding ends none. -/
def endsRoundTrip (w : RoundTrip) (e : Exchange) : Bool := decide (w ≠ .idle ∧ hostMove w e = some .idle)

/-- How many round trips a host that keeps the rule ends in a sequence of transactions. -/
def roundTripsEnded : RoundTrip → List Exchange → Nat
  | _, [] => 0
  | w, e :: es =>
    match hostMove w e with
    | some v => (if endsRoundTrip w e then 1 else 0) + roundTripsEnded v es
    | none => 0

/-- The host keeps one request in flight throughout, starting with none outstanding (R177, R178). The block does not enforce this (log
20). -/
def oneInFlight (es : List Exchange) : Bool := (follow .idle es).isSome

end Sys2Proof.Safety
end

