-- ==== Sys2Proof/WellFormed.lean ====
section
/-!
DEFINITION. Well-formed frames and instructions: the operand limits the spec states. The machine does not test these (an ill-formed
wire command still runs as the ENCODE or MATCH_RESPONSE it stands for, logs 13 and 14); they say which terms the spec calls a Frame or
a request of the named command.
-/

namespace Sys2Proof

/-- A record is a Frame when its payload fits the one-byte length field (R15, R60). -/
def Frame.wf (f : Frame) : Bool := decide (f.payload.length ≤ Config.params.maxPayload)

/-- The payload of a keyboard report: 8 bytes, the one at offset 1 reserved as 0x00 (R67). -/
def isKbReport (p : List Byte) : Bool := decide (p.length = Config.params.kbReportLen) && decide (p[1]? = some 0x00#8)

/-- An instruction is well-formed when its operands are what the spec says the operation or command takes. -/
def Instr.wf : Instr → Bool
  -- any byte sequence (R89, R92)
  | .encode _ _ => true
  | .decode _ => true
  -- a Frame (R101, R104)
  | .classify f => f.wf
  | .matchResponse _ f => f.wf
  -- an 8-bit argument or none (R70)
  | .keyDown _ => true
  | .keyUp _ => true
  | .rxByte _ => true
  | .rxEnd => true
  -- requests: the payload the command has (R131 to R136)
  | .getInfo p => decide (p = [])
  | .sendKeyboardGeneral p => isKbReport p
  | .sendKeyboardMedia p => decide (p.length ≤ Config.params.maxPayload)
  | .sendMouseAbs p => decide (p.length ≤ Config.params.maxPayload)
  | .sendMouseRel p => decide (p.length ≤ Config.params.maxPayload)
  | .reset p => decide (p = [])
  -- responses: the payload of a parsed Frame (R137 to R142)
  | .getInfoResp p => decide (p.length ≤ Config.params.maxPayload)
  | .sendKeyboardGeneralResp p => decide (p.length ≤ Config.params.maxPayload)
  | .sendKeyboardMediaResp p => decide (p.length ≤ Config.params.maxPayload)
  | .sendMouseAbsResp p => decide (p.length ≤ Config.params.maxPayload)
  | .sendMouseRelResp p => decide (p.length ≤ Config.params.maxPayload)
  | .resetResp p => decide (p.length ≤ Config.params.maxPayload)

end Sys2Proof
end

