-- ==== Sys2Proof/Certificates/Slice0/Obligations.lean ====
section
/-!
DEFINITION. The statements for the provers. First the forms they are said in, written from the rules and not from the model's own
operations; then one definition per statement. `Config.params` are the block's unknown parameters (R9): every statement holds for
whatever they are.
-/

namespace Sys2Proof.Form

open Sys2Proof.Machine Sys2Proof.Safety

/-- "low byte of sum of all" the bytes, the sum taken in natural numbers (R58). -/
def lowByteSum (l : List Byte) : Byte := BitVec.ofNat 8 (l.map BitVec.toNat).sum

/-- The bytes of a frame before its checksum, for command `c` and payload `p` (R55, R56, R61). -/
def unsummed (c : Byte) (p : List Byte) : List Byte :=
  [Config.params.syncHi, Config.params.syncLo, 0x00#8, c, BitVec.ofNat 8 p.length] ++ p

/-- The whole frame on the wire (R55, R56, R58). -/
def frameBytes (c : Byte) (p : List Byte) : List Byte := unsummed c p ++ [lowByteSum (unsummed c p)]

/-- The state in which the operation has answered and changed nothing else. -/
def answered (st : Status) (r : Result) (s : State) : State := { s with response := some ⟨st, r, []⟩ }

/-- The state in which the operation has emitted `w`, answered OK with it, and changed nothing else. -/
def sent (w : List Byte) (s : State) : State :=
  { s with tx := s.tx ++ w, response := some ⟨.ok, .emitted w, w⟩ }

/-- The modifier code `MOD_BASE + k` (R112). -/
def modifierCode (k : Fin 8) : Byte := Config.params.modBase + BitVec.ofNat 8 k.val

/-- A key code outside `MOD_BASE .. MOD_BASE + 7` (R112). -/
def IsKey (c : Byte) : Prop :=
  c.toNat < Config.params.modBase.toNat ∨ Config.params.modBase.toNat + 7 < c.toNat

/-- The keyboard registers are the same in both states. -/
def SameKeyboard (s t : State) : Prop := t.kbMod = s.kbMod ∧ t.kbSlot = s.kbSlot

/-- The receiver registers other than RX_PHASE are the same in both states. -/
def SameRxData (s t : State) : Prop :=
  t.rxSum = s.rxSum ∧ t.rxSyncOk = s.rxSyncOk ∧ t.rxAddr = s.rxAddr ∧ t.rxCmd = s.rxCmd ∧ t.rxLen = s.rxLen ∧
    t.rxIdx = s.rxIdx ∧ t.rxBuf = s.rxBuf

/-- All receiver registers are the same in both states. -/
def SameReceiver (s t : State) : Prop := t.rxPhase = s.rxPhase ∧ SameRxData s t

/-- The operations that emit nothing and touch no register: DECODE, CLASSIFY, MATCH_RESPONSE and the six responses (R40, R137 to R142). -/
def ReadsOnly (i : Instr) : Prop :=
  (∃ b, i = .decode b) ∨ (∃ f, i = .classify f) ∨ (∃ q f, i = .matchResponse q f) ∨ (∃ p, i = .getInfoResp p) ∨
    (∃ p, i = .sendKeyboardGeneralResp p) ∨ (∃ p, i = .sendKeyboardMediaResp p) ∨ (∃ p, i = .sendMouseAbsResp p) ∨
    (∃ p, i = .sendMouseRelResp p) ∨ (∃ p, i = .resetResp p)

/-- The operations that build a frame from a payload the host gives: ENCODE and the six requests (R89, R131 to R136). -/
def BuildsFrame (i : Instr) (c : Byte) (p : List Byte) : Prop :=
  i = .encode c p ∨ (i = .getInfo p ∧ c = 0x01#8) ∨ (i = .sendKeyboardGeneral p ∧ c = 0x02#8) ∨
    (i = .sendKeyboardMedia p ∧ c = 0x03#8) ∨ (i = .sendMouseAbs p ∧ c = 0x04#8) ∨ (i = .sendMouseRel p ∧ c = 0x05#8) ∨
    (i = .reset p ∧ c = Config.params.cmdReset)

/-- The six responses, by the request code they answer (R137 to R142). -/
def ReadsResponse (i : Instr) (q : Byte) (p : List Byte) : Prop :=
  (i = .getInfoResp p ∧ q = 0x01#8) ∨ (i = .sendKeyboardGeneralResp p ∧ q = 0x02#8) ∨
    (i = .sendKeyboardMediaResp p ∧ q = 0x03#8) ∨ (i = .sendMouseAbsResp p ∧ q = 0x04#8) ∨
    (i = .sendMouseRelResp p ∧ q = 0x05#8) ∨ (i = .resetResp p ∧ q = Config.params.cmdReset)

/-- CLASSIFY's table by shape: command bit 7 and payload length (R103). -/
def classOf (f : Frame) : Byte :=
  if f.cmd.toNat < 128 then 0xE6#8
  else if f.payload.length = 0 then 0xE6#8
  else if f.payload.length = 1 then f.payload.headD 0x00#8
  else 0x00#8

/-- What DECODE answers for a sequence that holds a whole frame: five header bytes, as many payload bytes as the fifth says, a checksum
byte, and the rest (R91, R92). -/
def decodeAnswer (b0 b1 b2 b3 b4 : Byte) (p : List Byte) (cs : Byte) (rest : List Byte) (s : State) : State :=
  if b0 ≠ Config.params.syncHi ∨ b1 ≠ Config.params.syncLo ∨ b2 ≠ 0x00#8 then
    answered (.error (.headerError (some [b0, b1, b2, b3, b4]) (6 + b4.toNat))) .nothing s
  else if cs ≠ lowByteSum ([b0, b1, b2, b3, b4] ++ p) then
    answered (.error (.checksumError cs (lowByteSum ([b0, b1, b2, b3, b4] ++ p)) (6 + b4.toNat))) .nothing s
  else answered .ok (.decoded ⟨b2, b3, p⟩ rest) s

/-- The operations that send a request frame, by its request code: ENCODE of a request code and the six requests with a payload that
fits, KEY_DOWN and KEY_UP (R62, R89, R119, R120, R131 to R136). -/
def SendsRequest (i : Instr) (c : Byte) : Prop :=
  (c.toNat < 128 ∧ ∃ p, p.length ≤ 255 ∧ BuildsFrame i c p) ∨ (c = 0x02#8 ∧ ∃ k, i = .keyDown k ∨ i = .keyUp k)

/-- A transaction in which DECODE or RX_BYTE returned the frame `f` (R92, R98). -/
def Receives (e : Exchange) (f : Frame) : Prop :=
  (∃ b r, e.instr = .decode b ∧ e.response = ⟨.ok, .decoded f r, []⟩) ∨
    ∃ b, e.instr = .rxByte b ∧ e.response = ⟨.ok, .received f, []⟩

/-- A transaction in which DECODE, RX_BYTE or RX_END answered an error (R92, R98, R99). -/
def FailsToReceive (e : Exchange) : Prop :=
  ((∃ b, e.instr = .decode b) ∨ (∃ b, e.instr = .rxByte b) ∨ e.instr = .rxEnd) ∧
    ∃ x, e.response = ⟨.error x, .nothing, []⟩

/-- A transaction that checked the frame `f` as the response to the request code `c`: MATCH_RESPONSE of exactly `c` and `f`, or the
response row of the request `c` with `f` as its parsed frame (log 11); and its answer is that of MATCH_RESPONSE (R104, R137 to R142). -/
def Checks (e : Exchange) (c : Byte) (f : Frame) : Prop :=
  (e.instr = .matchResponse c f ∨ ∃ p, ReadsResponse e.instr c p ∧ f = ⟨0x00#8, c ||| 0x80#8, p⟩) ∧
    ∃ st, e.response = ⟨st, .nothing, []⟩ ∧ ∀ u : State, exec (.matchResponse c f) u = .next (answered st .nothing u)

/-- Slot `i` is the first, in index order, that is empty or holds `c` (R114). -/
def FirstEmptyOrMatching (c : Byte) (s : State) (i : Fin 6) : Prop :=
  (s.kbSlot[i] = 0x00#8 ∨ s.kbSlot[i] = c) ∧ ∀ j : Fin 6, j < i → s.kbSlot[j] ≠ 0x00#8 ∧ s.kbSlot[j] ≠ c

end Sys2Proof.Form

open Sys2Proof Sys2Proof.Machine Sys2Proof.Safety Sys2Proof.Form

/-! ## How the machine takes an instruction -/

/-- A step runs the decoded instruction: the block takes the oldest presented transaction and is `exec` of its instruction, in the
state without that transaction (R37, R46, R47; the place the transaction is presented is the model's choice, log 7). -/
def Obligations.StepRunsDecodedInstruction : Prop :=
  ∀ (s : State) (r : Request) (later : List HostEvent) (i : Instr),
    s.host = .request r :: later → decode r = .ok i → step s = exec i { s with host := later }

/-- Words of the spec's encodings, written out bit by bit, decode to their instructions (R69, R70, R63, R64). -/
def Obligations.SpecWordsDecodeAsListed : Prop :=
  decodeTableWord 16 0b0000010000000100 = some (.keyDown 0x04#8) ∧
  decodeTableWord 16 0b0000010111100001 = some (.keyUp 0xE1#8) ∧
  decodeTableWord 16 0b0000000100000000 = some (.decode []) ∧
  decodeTableWord 16 0b0000000100000001 = none ∧
  decodeTableWord 16 0b0000100000000000 = none ∧
  decodeTableWord 16 0b0000011100000000 = some .rxEnd ∧
  decodeTableWord 8 0b00000011 = some (.sendKeyboardMedia []) ∧
  decodeTableWord 8 0b10000101 = some (.sendMouseRelResp [])

/-- Every operation word with `rsv = 0`, and `arg = 0x00` for DECODE, CLASSIFY and RX_END, spells its operation, with every argument
(R69, R70, R75). -/
def Obligations.OperationWordsSpellTheEightOperations : Prop :=
  ∀ (a : Byte) (o : Operand),
    decode (.op (BitVec.ofNat 16 (0x0000 + a.toNat)) o) = .ok (.encode a o.bytes) ∧
    decode (.op 0x0100#16 o) = .ok (.decode o.bytes) ∧
    decode (.op 0x0200#16 o) = .ok (.classify o.frame) ∧
    decode (.op (BitVec.ofNat 16 (0x0300 + a.toNat)) o) = .ok (.matchResponse a o.frame) ∧
    decode (.op (BitVec.ofNat 16 (0x0400 + a.toNat)) o) = .ok (.keyDown a) ∧
    decode (.op (BitVec.ofNat 16 (0x0500 + a.toNat)) o) = .ok (.keyUp a) ∧
    decode (.op (BitVec.ofNat 16 (0x0600 + a.toNat)) o) = .ok (.rxByte a) ∧
    decode (.op 0x0700#16 o) = .ok .rxEnd

/-- A reserved operation word raises ReservedOp with the word, changes no register and emits nothing (R71, R152, decision D31). -/
def Obligations.ReservedWordRaisesReservedOp : Prop :=
  ∀ (s : State) (w : OpWord) (o : Operand) (later : List HostEvent),
    s.host = .request (.op w o) :: later →
    (w.toNat / 2048 ≠ 0 ∨
      ((w.toNat / 256 = 1 ∨ w.toNat / 256 = 2 ∨ w.toNat / 256 = 7) ∧ w.toNat % 256 ≠ 0)) →
    step s = .next (answered (.error (.reservedOp w)) .nothing { s with host := later })

/-- Decoding what the encoder gives for a well-formed instruction gives it back, for every constructor, every argument and every
operand (R63, R64, R69, R70). -/
def Obligations.DecodeInvertsEncode : Prop :=
  ∀ i : Instr, i.wf = true → decode (encode i) = .ok i

/-- The command codes name the wire commands (R63, R64), the reset code being the open parameter CMD_RESET. -/
def Obligations.CommandCodesNameTheWireCommands : Prop :=
  ∀ p : List Byte,
    decode (.command 0x01#8 p) = .ok (.getInfo p) ∧ decode (.command 0x81#8 p) = .ok (.getInfoResp p) ∧
    decode (.command 0x02#8 p) = .ok (.sendKeyboardGeneral p) ∧
    decode (.command 0x82#8 p) = .ok (.sendKeyboardGeneralResp p) ∧
    decode (.command 0x03#8 p) = .ok (.sendKeyboardMedia p) ∧
    decode (.command 0x83#8 p) = .ok (.sendKeyboardMediaResp p) ∧
    decode (.command 0x04#8 p) = .ok (.sendMouseAbs p) ∧ decode (.command 0x84#8 p) = .ok (.sendMouseAbsResp p) ∧
    decode (.command 0x05#8 p) = .ok (.sendMouseRel p) ∧ decode (.command 0x85#8 p) = .ok (.sendMouseRelResp p) ∧
    decode (.command Config.params.cmdReset p) = .ok (.reset p) ∧
    decode (.command (Config.params.cmdReset ||| 0x80#8) p) = .ok (.resetResp p)

/-! ## ENCODE and the requests -/

/-- ENCODE of any command byte and any payload of at most 255 bytes answers OK and emits the frame: the sync bytes, the address 0x00, the
command, the payload's length, the payload, and the low byte of the sum of all of these (R56, R58, R61). -/
def Obligations.EncodeBuildsTheFrame : Prop :=
  ∀ (c : Byte) (p : List Byte) (s : State), p.length ≤ 255 →
    exec (.encode c p) s = .next (sent (frameBytes c p) s)

/-- The checksum function is the low byte of the sum of the sync bytes, the address, the command, the length and the payload, which is
`S0 + a + c + |p| + sum8(p)` mod 256 with `S0 = SYNC_HI + SYNC_LO`; and ENCODE's frame ends in it (R87). -/
def Obligations.ChecksumIsTheSumOfItsParts : Prop :=
  Config.params.s0.toNat = (Config.params.syncHi.toNat + Config.params.syncLo.toNat) % 256 ∧
  ∀ (a c : Byte) (p : List Byte), p.length ≤ 255 →
    checksum Config.params ⟨a, c, p⟩ =
      lowByteSum ([Config.params.syncHi, Config.params.syncLo, a, c, BitVec.ofNat 8 p.length] ++ p) ∧
    (checksum Config.params ⟨a, c, p⟩).toNat =
      (Config.params.s0.toNat + a.toNat + c.toNat + p.length + (p.map BitVec.toNat).sum) % 256 ∧
    ∀ s : State, ∃ t, exec (.encode c p) s = .next t ∧
      t.tx.getLast? = some (checksum Config.params ⟨0x00#8, c, p⟩)

/-- The six wire requests are the ENCODE of their code: GetInfo, SendKeyboardGeneral, SendKeyboardMedia, SendMouseAbs, SendMouseRel and
Reset emit that frame (R130 to R136; that a request row is issued as the building of its frame is log 11). -/
def Obligations.WireRequestsEmitTheirFrames : Prop :=
  ∀ (i : Instr) (c : Byte) (p : List Byte) (s : State), BuildsFrame i c p → p.length ≤ 255 →
    exec i s = .next (sent (frameBytes c p) s)

/-- ENCODE, and each of the six requests, with more than 255 payload bytes raises PayloadTooLong with the length and emits nothing (R89; the
bound 255 is decision D4, conflict C1; that a request row is issued so is log 11, log 13). -/
def Obligations.LongPayloadsAreRejected : Prop :=
  ∀ (i : Instr) (c : Byte) (p : List Byte) (s : State), BuildsFrame i c p → 255 < p.length →
    exec i s = .next (answered (.error (.payloadTooLong p.length)) .nothing s)

/-! ## DECODE -/

/-- DECODE: Truncated when fewer than `6 + L` bytes are present, or fewer than 5; otherwise HeaderError, ChecksumError or the Frame with
the rest, in that order (R92; the header check is decision D6, the order D7, Truncated and the rest D8). -/
def Obligations.DecodeParsesOneFrame : Prop :=
  (∀ (b : List Byte) (s : State),
    (b.length < 5 ∨ ∃ l : Byte, b[4]? = some l ∧ b.length < 6 + l.toNat) →
      exec (.decode b) s = .next (answered (.error (.truncated b.length)) .nothing s)) ∧
  (∀ (b0 b1 b2 b3 b4 : Byte) (p : List Byte) (cs : Byte) (rest : List Byte) (s : State),
    p.length = b4.toNat →
      exec (.decode ([b0, b1, b2, b3, b4] ++ p ++ [cs] ++ rest)) s =
        .next (decodeAnswer b0 b1 b2 b3 b4 p cs rest s))

/-- A frame of this protocol whose checksum byte differs from the sum of its preceding bytes mod 256 is a ChecksumError, which records both
checksums (R149). -/
def Obligations.ChecksumMismatchIsChecksumError : Prop :=
  ∀ (c : Byte) (p : List Byte) (x : Byte) (r : List Byte) (s : State), p.length ≤ 255 → x ≠ lowByteSum (unsummed c p) →
    ∃ n, exec (.decode (unsummed c p ++ [x] ++ r)) s =
      .next (answered (.error (.checksumError x (lowByteSum (unsummed c p)) n)) .nothing s)

/-- Round trip: what ENCODE emits, followed by any bytes, DECODEs to the command and the payload, with those bytes as the rest (R97,
which the spec derives from R88, R89 and R92). -/
def Obligations.DecodeInvertsEncodeOnTheWire : Prop :=
  ∀ (c : Byte) (p r : List Byte) (s u : State), p.length ≤ 255 →
    ∃ w t, exec (.encode c p) s = .next t ∧ t.response = some ⟨.ok, .emitted w, w⟩ ∧
      exec (.decode (w ++ r)) u = .next (answered .ok (.decoded ⟨0x00#8, c, p⟩ r) u)

/-- A single flipped bit anywhere in an encoded frame but its length byte makes DECODE fail: HeaderError in the sync bytes or the
address, ChecksumError elsewhere (R90, which the spec derives from R87, and R94). -/
def Obligations.SingleBitFlipIsDetected : Prop :=
  ∀ (c : Byte) (p r : List Byte) (s : State) (j : Nat) (k : Fin 8) (x : Byte),
    p.length ≤ 255 → j ≠ 4 → (frameBytes c p)[j]? = some x →
      ∃ e, exec (.decode ((frameBytes c p).set j (x ^^^ (1#8 <<< k.val)) ++ r)) s =
          .next (answered (.error e) .nothing s) ∧
        statusCode (.error e) = if j < 3 then 3 else 4

/-- The checksum does not see the order of the payload bytes: a frame with its payload reordered and its old checksum still decodes
(R90, which the spec derives from R87). -/
def Obligations.ReorderedPayloadIsNotDetected : Prop :=
  ∀ (c : Byte) (p q r : List Byte) (s : State), p.length ≤ 255 → p.Perm q →
    exec (.decode (unsummed c q ++ [lowByteSum (unsummed c p)] ++ r)) s =
      .next (answered .ok (.decoded ⟨0x00#8, c, q⟩ r) s)

/-! ## CLASSIFY and MATCH_RESPONSE -/

/-- CLASSIFY answers OK with the error code of the frame's shape (R101, R103). -/
def Obligations.ClassifyFollowsTheShape : Prop :=
  ∀ (f : Frame) (s : State), f.payload.length ≤ 255 →
    exec (.classify f) s = .next (answered .ok (.code (classOf f)) s)

/-- MATCH_RESPONSE: the error code first, which a one-byte payload is not when the request code is itself a response code; then the
command; else OK (R104). -/
def Obligations.MatchResponseChecksCodeThenCommand : Prop :=
  ∀ (q : Byte) (f : Frame) (s : State) (e : Byte), f.payload.length ≤ 255 →
    e = (if 128 ≤ q.toNat ∧ f.payload.length = 1 ∧ 128 ≤ f.cmd.toNat then 0x00#8 else classOf f) →
    exec (.matchResponse q f) s = .next (
      if e ≠ 0x00#8 then answered (.error (.protocolError .errorCode e)) .nothing s
      else if f.cmd ≠ q ||| 0x80#8 then answered (.error (.protocolError .commandMismatch f.cmd)) .nothing s
      else answered .ok .nothing s)

/-- The acknowledgement of a keyboard frame: `MATCH_RESPONSE 0x02` answers OK exactly for command 0x82 with a one-byte payload 0x00 or a
payload of 2 to 255 bytes (R105, which the spec derives from R101 and R104). -/
def Obligations.KeyboardAcknowledgementShape : Prop :=
  ∀ (f : Frame) (s : State), f.payload.length ≤ 255 →
    (exec (.matchResponse 0x02#8 f) s = .next (answered .ok .nothing s) ↔
      f.cmd = 0x82#8 ∧ (f.payload = [0x00#8] ∨ 2 ≤ f.payload.length))

/-- The six responses: OK for a payload of 2 to 255 bytes or the one byte 0x00; otherwise ProtocolError with the error code, 0xE6 for an
empty payload (R137 to R142 with R101 and R104; that a response row is issued as the reading of its parsed frame is log 11). -/
def Obligations.WireResponsesAreReadAgainstTheirRequest : Prop :=
  ∀ (i : Instr) (q : Byte) (p : List Byte) (s : State), ReadsResponse i q p → p.length ≤ 255 →
    exec i s = .next (
      if p = [] then answered (.error (.protocolError .errorCode 0xE6#8)) .nothing s
      else if p.length = 1 ∧ p ≠ [0x00#8] then
        answered (.error (.protocolError .errorCode (p.headD 0x00#8))) .nothing s
      else answered .ok .nothing s)

/-- A response row reads exactly as DECODE of its wire form followed by MATCH_RESPONSE of its request code (R130, R137 to R142). -/
def Obligations.ResponseIsDecodeThenMatch : Prop :=
  ∀ (i : Instr) (q : Byte) (p r : List Byte) (s : State), ReadsResponse i q p → p.length ≤ 255 →
    ∃ f, exec (.decode (frameBytes (q ||| 0x80#8) p ++ r)) s = .next (answered .ok (.decoded f r) s) ∧
      exec (.matchResponse q f) s = exec i s

/-! ## The keyboard -/

/-- KEY_DOWN of the modifier code `MOD_BASE + k` sets bit k of KB_MOD (set_clear) or flips it (xor), and changes no other bit and no slot
(R112, R113, R119; decisions D13, D14). -/
def Obligations.ModifierPressChangesOneBit : Prop :=
  ∀ (k : Fin 8) (s : State), ∃ t, exec (.keyDown (modifierCode k)) s = .next t ∧
    (∀ j : Fin 8, t.kbMod.getLsbD j.val =
      if j = k then (if Config.params.modUpdate = .setClear then true else !s.kbMod.getLsbD j.val)
      else s.kbMod.getLsbD j.val) ∧
    t.kbSlot = s.kbSlot

/-- KEY_UP of the modifier code `MOD_BASE + k` clears bit k of KB_MOD (set_clear) or flips it (xor), and changes no other bit and no slot
(R112, R113, R120; decisions D13, D14). -/
def Obligations.ModifierReleaseChangesOneBit : Prop :=
  ∀ (k : Fin 8) (s : State), ∃ t, exec (.keyUp (modifierCode k)) s = .next t ∧
    (∀ j : Fin 8, t.kbMod.getLsbD j.val =
      if j = k then (if Config.params.modUpdate = .setClear then false else !s.kbMod.getLsbD j.val)
      else s.kbMod.getLsbD j.val) ∧
    t.kbSlot = s.kbSlot

/-- A press of a non-modifier code writes the first slot that is empty or holds the code, and no other; KB_MOD keeps its value
(R114). -/
def Obligations.PressFillsFirstEmptyOrMatchingSlot : Prop :=
  ∀ (c : Byte) (s : State), IsKey c → ∃ t, exec (.keyDown c) s = .next t ∧ t.kbMod = s.kbMod ∧
    ∀ i : Fin 6, (FirstEmptyOrMatching c s i → t.kbSlot[i] = c) ∧
      (¬ FirstEmptyOrMatching c s i → t.kbSlot[i] = s.kbSlot[i])

/-- With six slots holding other codes, a press leaves the keyboard state unchanged: the new code is dropped, none is evicted (R115). The
drop is silent: the status is OK (R180). -/
def Obligations.SeventhKeyIsDropped : Prop :=
  ∀ (c : Byte) (s : State), IsKey c → (∀ i : Fin 6, s.kbSlot[i] ≠ 0x00#8 ∧ s.kbSlot[i] ≠ c) →
    ∃ t a, exec (.keyDown c) s = .next t ∧ SameKeyboard s t ∧ t.response = some a ∧ a.status = .ok

/-- A release of a non-modifier code empties every slot that holds it and changes no other slot; KB_MOD keeps its value; slots are not
compacted (R117). -/
def Obligations.ReleaseClearsEveryMatchingSlot : Prop :=
  ∀ (c : Byte) (s : State), IsKey c → ∃ t, exec (.keyUp c) s = .next t ∧ t.kbMod = s.kbMod ∧
    ∀ i : Fin 6, t.kbSlot[i] = if s.kbSlot[i] = c then 0x00#8 else s.kbSlot[i]

/-- A code pressed again after an earlier slot was emptied occupies two slots, and one release clears both (R116, which the spec derives
from R114 and R117). -/
def Obligations.RepressAfterGapDuplicatesTheCode : Prop :=
  ∀ (a b : Byte) (s : State), IsKey a → IsKey b → a ≠ 0x00#8 → b ≠ 0x00#8 → a ≠ b →
    s.kbSlot = Vector.replicate 6 0x00#8 →
    ∃ t1 t2 t3 t4 t5, exec (.keyDown a) s = .next t1 ∧ exec (.keyDown b) t1 = .next t2 ∧
      exec (.keyUp a) t2 = .next t3 ∧ exec (.keyDown b) t3 = .next t4 ∧ exec (.keyUp b) t4 = .next t5 ∧
      t4.kbSlot.toList = [b, b, 0x00#8, 0x00#8, 0x00#8, 0x00#8] ∧ t5.kbSlot = s.kbSlot

/-- Every KEY_DOWN and every KEY_UP answers OK and emits exactly one frame, the whole keyboard state as it stands after the update: the
modifier byte, the reserved 0x00, the six slots in order (R118, R121, R123; layout decision D15, frame on every call decision D16). -/
def Obligations.KeyOperationsEmitTheSnapshot : Prop :=
  ∀ (c : Byte) (s : State) (i : Instr), i = .keyDown c ∨ i = .keyUp c →
    ∃ t w, exec i s = .next t ∧
      w = frameBytes 0x02#8 [t.kbMod, 0x00#8, t.kbSlot[0], t.kbSlot[1], t.kbSlot[2], t.kbSlot[3], t.kbSlot[4], t.kbSlot[5]] ∧
      w.length = 14 ∧ t.tx = s.tx ++ w ∧ t.response = some ⟨.ok, .emitted w, w⟩

/-- Code 0x00 changes no keyboard register, pressed or released, and still emits the frame (R124, which the spec derives from R114, R117
and R121). -/
def Obligations.CodeZeroOnlyEmits : Prop :=
  ∀ (s : State) (i : Instr), i = .keyDown 0x00#8 ∨ i = .keyUp 0x00#8 →
    exec i s = .next (sent (frameBytes 0x02#8
      [s.kbMod, 0x00#8, s.kbSlot[0], s.kbSlot[1], s.kbSlot[2], s.kbSlot[3], s.kbSlot[4], s.kbSlot[5]]) s)

/-- Frame of KEY_DOWN and KEY_UP: no receiver register changes; a modifier code changes no slot, any other code not KB_MOD (R40, R125). -/
def Obligations.KeyOperationsFrame : Prop :=
  ∀ (c : Byte) (s t : State) (i : Instr), i = .keyDown c ∨ i = .keyUp c → exec i s = .next t →
    SameReceiver s t ∧ t.host = s.host ∧ (IsKey c → t.kbMod = s.kbMod) ∧ (¬ IsKey c → t.kbSlot = s.kbSlot)

/-- A press repeated at once leaves the keyboard as one press does, for a key code or under set_clear; under xor a repeated modifier
press gives back the old registers (R48, R113). For all parameters. -/
def Obligations.RepeatedPressIsIdempotentUnlessXor : Prop :=
  ∀ (P : Config.Params) (c : Byte) (s : State),
    ((P.modUpdate = .setClear ∨ isModifier P c = false) → pressKey P c (pressKey P c s) = pressKey P c s) ∧
    (P.modUpdate = .xor → isModifier P c = true → pressKey P c (pressKey P c s) = s)

/-- The two readings of "toggle" agree on a press and release of a modifier that starts released: KB_MOD is the same after the press and
after the release under both (R113). For all parameters that differ in MOD_UPDATE alone. -/
def Obligations.ToggleReadingsAgreeFromReleased : Prop :=
  ∀ (P : Config.Params) (c : Byte) (s : State), isModifier P c = true → s.kbMod &&& modifierBit P c = 0x00#8 →
    pressKey { P with modUpdate := .setClear } c s = pressKey { P with modUpdate := .xor } c s ∧
    releaseKey { P with modUpdate := .setClear } c (pressKey { P with modUpdate := .setClear } c s) = s ∧
    releaseKey { P with modUpdate := .xor } c (pressKey { P with modUpdate := .xor } c s) = s

/-- In every step a slot keeps its value, or was empty, or becomes empty: it never goes from one code directly to another (R24 clause 3,
which the spec derives from R114 and R117). -/
def Obligations.SlotsMoveThroughEmptyInEveryStep : Prop :=
  ∀ s t : State, step s = .next t → SlotsMoveThroughEmpty s t

/-! ## The receiver -/

/-- RX_BYTE in the five header phases (R98, decision D9): RX_SUM, the sync comparison or the header register, and the next phase; OK
with nothing. -/
def Obligations.RxByteTakesTheHeader : Prop :=
  ∀ (b : Byte) (s : State),
    (s.rxPhase = .h0 → exec (.rxByte b) s = .next (answered .ok .nothing
      { s with rxSum := b, rxSyncOk := decide (b = Config.params.syncHi), rxPhase := .h1 })) ∧
    (s.rxPhase = .h1 → exec (.rxByte b) s = .next (answered .ok .nothing
      { s with rxSum := s.rxSum + b, rxSyncOk := s.rxSyncOk && decide (b = Config.params.syncLo), rxPhase := .h2 })) ∧
    (s.rxPhase = .h2 → exec (.rxByte b) s = .next (answered .ok .nothing
      { s with rxSum := s.rxSum + b, rxAddr := b, rxPhase := .h3 })) ∧
    (s.rxPhase = .h3 → exec (.rxByte b) s = .next (answered .ok .nothing
      { s with rxSum := s.rxSum + b, rxCmd := b, rxPhase := .h4 })) ∧
    (s.rxPhase = .h4 → exec (.rxByte b) s = .next (answered .ok .nothing
      { s with rxSum := s.rxSum + b, rxLen := b, rxIdx := 0x00#8,
               rxPhase := if b = 0x00#8 then .csum else .pay }))

/-- RX_BYTE in phase PAY (R98, decision D9): the byte goes into RX_BUF[RX_IDX] and no other element changes; RX_SUM and RX_IDX advance;
the phase becomes CSUM when RX_IDX reaches RX_LEN. Under R32's bound. -/
def Obligations.RxByteStoresThePayload : Prop :=
  ∀ (b : Byte) (s : State), s.rxPhase = .pay → RxCounts s →
    ∃ t, exec (.rxByte b) s = .next t ∧
      (∀ j : Fin 255, t.rxBuf[j] = if j.val = s.rxIdx.toNat then b else s.rxBuf[j]) ∧
      t.rxSum = s.rxSum + b ∧ t.rxIdx.toNat = s.rxIdx.toNat + 1 ∧
      (t.rxPhase = if s.rxIdx.toNat + 1 = s.rxLen.toNat then .csum else .pay) ∧
      t.rxSyncOk = s.rxSyncOk ∧ t.rxAddr = s.rxAddr ∧ t.rxCmd = s.rxCmd ∧ t.rxLen = s.rxLen ∧
      SameKeyboard s t ∧ t.host = s.host ∧ t.tx = s.tx ∧ t.response = some ⟨.ok, .nothing, []⟩

/-- RX_BYTE on the checksum byte (R98, R94, decision D9): back to H0; HeaderError, then ChecksumError, then the completed Frame. -/
def Obligations.RxByteJudgesTheChecksum : Prop :=
  ∀ (b : Byte) (s : State), s.rxPhase = .csum →
    exec (.rxByte b) s = .next (
      if s.rxSyncOk = false ∨ s.rxAddr ≠ 0x00#8 then
        answered (.error (.headerError none (6 + s.rxLen.toNat))) .nothing { s with rxPhase := .h0 }
      else if b ≠ s.rxSum then
        answered (.error (.checksumError b s.rxSum (6 + s.rxLen.toNat))) .nothing { s with rxPhase := .h0 }
      else answered .ok (.received ⟨s.rxAddr, s.rxCmd, s.rxBuf.toList.take s.rxLen.toNat⟩) { s with rxPhase := .h0 })

/-- RX_END (R99, decision D9): OK with nothing at H0; otherwise Truncated with the number of bytes taken, and back to H0. -/
def Obligations.RxEndReportsTheCutFrame : Prop :=
  ∀ s : State,
    (s.rxPhase = .h0 → exec .rxEnd s = .next (answered .ok .nothing s)) ∧
    (∀ n : Nat, (s.rxPhase = .h1 ∧ n = 1) ∨ (s.rxPhase = .h2 ∧ n = 2) ∨ (s.rxPhase = .h3 ∧ n = 3) ∨
        (s.rxPhase = .h4 ∧ n = 4) ∨ (s.rxPhase = .pay ∧ n = 5 + s.rxIdx.toNat) ∨
        (s.rxPhase = .csum ∧ n = 5 + s.rxLen.toNat) →
      exec .rxEnd s = .next (answered (.error (.truncated n)) .nothing { s with rxPhase := .h0 }))

/-- Frame of RX_BYTE and RX_END: no keyboard register changes and nothing is emitted; RX_BYTE changes only the registers its phase
names, and RX_BUF only in phase PAY (R40, R98, R99). -/
def Obligations.ReceiverOperationsFrame : Prop :=
  ∀ (s t : State),
    (exec .rxEnd s = .next t → SameKeyboard s t ∧ SameRxData s t ∧ t.host = s.host ∧ t.tx = s.tx) ∧
    (∀ b : Byte, exec (.rxByte b) s = .next t →
      SameKeyboard s t ∧ t.host = s.host ∧ t.tx = s.tx ∧
      (s.rxPhase ≠ .pay → t.rxBuf = s.rxBuf) ∧ (s.rxPhase ≠ .pay → s.rxPhase ≠ .h4 → t.rxIdx = s.rxIdx) ∧
      (s.rxPhase ≠ .h2 → t.rxAddr = s.rxAddr) ∧ (s.rxPhase ≠ .h3 → t.rxCmd = s.rxCmd) ∧
      (s.rxPhase ≠ .h4 → t.rxLen = s.rxLen) ∧
      (s.rxPhase ≠ .h0 → s.rxPhase ≠ .h1 → t.rxSyncOk = s.rxSyncOk) ∧
      (s.rxPhase = .csum → t.rxSum = s.rxSum))

/-- While a frame is being received the registers hold its bytes: one more RX_BYTE before the checksum makes them hold one more byte,
RX_SUM the sum of all of them (R29, R32). -/
def Obligations.ReceiverHoldsTheBytesOfTheFrame : Prop :=
  ∀ (bs : List Byte) (b : Byte) (s : State), RxHolds Config.params bs s → s.rxPhase ≠ .csum →
    ∃ t, exec (.rxByte b) s = .next t ∧ RxHolds Config.params (bs ++ [b]) t

/-- The two decoders are equivalent (R100, which the spec derives from R92, R98 and R99): from H0, feeding a non-empty sequence byte by
byte answers what DECODE answers, with the same Frame, the same error and counts, and leaves unfed what DECODE leaves. HeaderError
carries the five header bytes only from DECODE (R146; log 15). -/
def Obligations.ByteSerialDecodingEqualsDecode : Prop :=
  ∀ (bs : List Byte) (s u : State), s.rxPhase = .h0 → bs ≠ [] →
    ∃ r rest t d, feed bs s = some (r, rest, t) ∧ t.rxPhase = .h0 ∧ exec (.decode bs) u = .next d ∧
      ((∃ f, d.response = some ⟨.ok, .decoded f rest, []⟩ ∧ r = ⟨.ok, .received f, []⟩) ∨
       (∃ n, d.response = some ⟨.error (.truncated n), .nothing, []⟩ ∧ r = ⟨.error (.truncated n), .nothing, []⟩ ∧
          n = bs.length ∧ rest = []) ∨
       (∃ h n, d.response = some ⟨.error (.headerError (some h) n), .nothing, []⟩ ∧
          r = ⟨.error (.headerError none n), .nothing, []⟩ ∧ rest = bs.drop n) ∨
       (∃ x y n, d.response = some ⟨.error (.checksumError x y n), .nothing, []⟩ ∧
          r = ⟨.error (.checksumError x y n), .nothing, []⟩ ∧ rest = bs.drop n))

/-- The empty input is the one difference of the two decoders: DECODE raises Truncated(0), RX_END at H0 answers OK with nothing (R100). -/
def Obligations.EmptyInputTellsTheDecodersApart : Prop :=
  ∀ s : State, s.rxPhase = .h0 →
    exec (.decode []) s = .next (answered (.error (.truncated 0)) .nothing s) ∧
    exec .rxEnd s = .next (answered .ok .nothing s)

/-- RX_BYTE faults exactly in phase PAY with RX_IDX = 255, where RX_BUF has no element (the model's choice, log 6; R20 gives RX_BUF the
elements 0 to 254). -/
def Obligations.RxByteFaultsOnlyPastTheBuffer : Prop :=
  ∀ (b : Byte) (s : State), exec (.rxByte b) s = .fault .rxBufIndex ↔ s.rxPhase = .pay ∧ s.rxIdx = 0xFF#8

/-! ## Frames, errors and purity -/

/-- Frame of the codec operations and of all wire commands: no register changes, and those that only read emit nothing (R20, R40, R48,
R174). -/
def Obligations.CodecOperationsWriteNoRegister : Prop :=
  ∀ (i : Instr) (s t : State), exec i s = .next t →
    (ReadsOnly i → SameKeyboard s t ∧ SameReceiver s t ∧ t.host = s.host ∧ t.tx = s.tx) ∧
    (∀ (c : Byte) (p : List Byte), BuildsFrame i c p → SameKeyboard s t ∧ SameReceiver s t ∧ t.host = s.host)

/-- The codec operations and the wire commands are pure: from any two states they answer the same (R48, which the spec derives from
R89, R92, R101 and R104). -/
def Obligations.CodecOperationsIgnoreTheState : Prop :=
  ∀ (i : Instr) (s u : State), (ReadsOnly i ∨ ∃ c p, BuildsFrame i c p) →
    ∃ t v, exec i s = .next t ∧ exec i u = .next v ∧ t.response = v.response ∧ t.response ≠ none

/-- The keyboard and the receiver are independent: what a key operation answers does not depend on the receiver registers, what a
receiver operation answers does not depend on the keyboard registers (R40). -/
def Obligations.KeyboardAndReceiverDoNotInterfere : Prop :=
  ∀ (s u t v : State) (c : Byte),
    (SameKeyboard s u → ∀ i : Instr, i = .keyDown c ∨ i = .keyUp c → exec i s = .next t → exec i u = .next v →
      t.response = v.response ∧ SameKeyboard t v) ∧
    (SameReceiver s u → ∀ i : Instr, i = .rxByte c ∨ i = .rxEnd → exec i s = .next t → exec i u = .next v →
      t.response = v.response ∧ SameReceiver t v)

/-- An error has no side effect beyond R156 (decision D23): no result, nothing emitted, no keyboard register written, no receiver
register but RX_PHASE, and that only by RX_BYTE or RX_END, to H0. -/
def Obligations.ErrorsHaveNoSideEffect : Prop :=
  ∀ (i : Instr) (s t : State) (e : Error) (r : Result) (w : List Byte),
    exec i s = .next t → t.response = some ⟨.error e, r, w⟩ →
      r = .nothing ∧ w = [] ∧ t.tx = s.tx ∧ SameKeyboard s t ∧ SameRxData s t ∧ t.host = s.host ∧
      (t.rxPhase = s.rxPhase ∨ (t.rxPhase = .h0 ∧ (i = .rxEnd ∨ ∃ b, i = .rxByte b)))

/-- Each error is raised only by the operations R146 lists for it (a wire command raises what the ENCODE or MATCH_RESPONSE it stands for
raises, log 11), and no decoded instruction raises ReservedOp. -/
def Obligations.ErrorsComeFromTheirOperations : Prop :=
  ∀ (i : Instr) (s t : State) (e : Error),
    exec i s = .next t → t.response = some ⟨.error e, .nothing, []⟩ →
      (statusCode (.error e) = 1 → ∃ c p, BuildsFrame i c p) ∧
      (statusCode (.error e) = 2 → (∃ b, i = .decode b) ∨ i = .rxEnd) ∧
      (statusCode (.error e) = 3 → (∃ b, i = .decode b) ∨ ∃ b, i = .rxByte b) ∧
      (statusCode (.error e) = 4 → (∃ b, i = .decode b) ∨ ∃ b, i = .rxByte b) ∧
      (statusCode (.error e) = 5 → (∃ q f, i = .matchResponse q f) ∨ ∃ q p, ReadsResponse i q p) ∧
      statusCode (.error e) ≠ 6

/-- The status numbers (R146, decision D25): OK 0, PayloadTooLong 1, Truncated 2, HeaderError 3, ChecksumError 4, ProtocolError 5,
ReservedOp 6; 7 is never returned. -/
def Obligations.StatusNumbers : Prop :=
  statusCode .ok = 0 ∧ (∀ n, statusCode (.error (.payloadTooLong n)) = 1) ∧
  (∀ n, statusCode (.error (.truncated n)) = 2) ∧ (∀ h n, statusCode (.error (.headerError h n)) = 3) ∧
  (∀ x y n, statusCode (.error (.checksumError x y n)) = 4) ∧ (∀ k c, statusCode (.error (.protocolError k c)) = 5) ∧
  (∀ w, statusCode (.error (.reservedOp w)) = 6) ∧ ∀ st, statusCode st ≠ 7

/-- A response whose payload is exactly one byte carries an error code in that byte, which CLASSIFY returns as data with status OK; its
names are 0x00 success, 0xE1 to 0xE6 the named failures, and every other value is unnamed and not success (R66). -/
def Obligations.ErrorByteNames : Prop :=
  (∀ (a c e : Byte) (s : State), 128 ≤ c.toNat →
    exec (.classify ⟨a, c, [e]⟩) s = .next (answered .ok (.code e) s)) ∧
  errorByte 0x00#8 = .success ∧ errorByte 0xE1#8 = .timeout ∧ errorByte 0xE2#8 = .badHeader ∧
  errorByte 0xE3#8 = .badCommand ∧ errorByte 0xE4#8 = .badChecksum ∧ errorByte 0xE5#8 = .badParameter ∧
  errorByte 0xE6#8 = .operationFailed ∧
  (∀ c : Byte, c ≠ 0x00#8 → (c.toNat < 0xE1 ∨ 0xE6 < c.toNat) → errorByte c = .unnamed c) ∧
  (∀ c : Byte, errorByte c = .success → c = 0x00#8)

/-- Whatever an instruction answers, the bytes it says it emitted are appended to the transmit stream, after all earlier ones, and
nothing else is (R47, R37). -/
def Obligations.EmittedBytesExtendTheTransmitStream : Prop :=
  ∀ (i : Instr) (s t : State), exec i s = .next t →
    ∃ a, t.response = some a ∧ t.tx = s.tx ++ a.emitted

/-! ## The whole machine -/

/-- The values of reset (R170, decision D18), the keyboard and the receiver; RX_BUF, the response, the stream and the host's list are the
model's own (log 5, log 7) and are not claimed here. -/
def Obligations.ResetValues : Prop :=
  State.reset.kbMod = 0x00#8 ∧ State.reset.kbSlot.toList = [0x00#8, 0x00#8, 0x00#8, 0x00#8, 0x00#8, 0x00#8] ∧
  State.reset.rxPhase = .h0 ∧ State.reset.rxSum = 0x00#8 ∧ State.reset.rxAddr = 0x00#8 ∧
  State.reset.rxCmd = 0x00#8 ∧ State.reset.rxLen = 0x00#8 ∧ State.reset.rxIdx = 0x00#8 ∧
  State.reset.rxSyncOk = true

/-- The reset event puts every register but the unspecified RX_BUF at its reset value, whatever the receiver was doing, and emits
nothing (R170, R172, R173, decision D18; that reset comes as a host event is log 16). -/
def Obligations.ResetEventResetsTheRegisters : Prop :=
  ∀ (s : State) (later : List HostEvent), s.host = .reset :: later →
    ∃ t, step s = .next t ∧ t.kbMod = State.reset.kbMod ∧ t.kbSlot = State.reset.kbSlot ∧
      t.rxPhase = State.reset.rxPhase ∧ t.rxSum = State.reset.rxSum ∧ t.rxSyncOk = State.reset.rxSyncOk ∧
      t.rxAddr = State.reset.rxAddr ∧ t.rxCmd = State.reset.rxCmd ∧ t.rxLen = State.reset.rxLen ∧
      t.rxIdx = State.reset.rxIdx ∧ t.tx = s.tx ∧ t.host = later

/-- With nothing presented the block does nothing: it acts only when the host issues an operation (R160; that a step then leaves the
state as it is, log 9). -/
def Obligations.NothingPresentedNothingHappens : Prop :=
  ∀ s : State, s.host = [] → step s = .next s

/-- A transaction of a second agent is refused (R179, decision D27, U12; log 17). -/
def Obligations.SecondAgentIsRefused : Prop :=
  ∀ (s : State) (r : Request) (later : List HostEvent), s.host = .otherAgent r :: later →
    step s = .refused .secondAgent

/-- The invariant holds at reset (R24, R32). -/
def Obligations.InvariantHoldsAtReset : Prop := Inv State.reset

/-- Every step keeps the invariant: no slot holds a modifier code (R24 clause 1), and the receiver registers hold a partly received
frame, RX_IDX within RX_LEN and RX_SUM its sum (R32). -/
def Obligations.EveryStepKeepsTheInvariant : Prop :=
  ∀ s t : State, Inv s → step s = .next t → Inv t

/-- In a state that meets the invariant the machine always goes on: with one host, no step faults and none is refused (R157, R158,
R171). -/
def Obligations.OneHostNeverStopsTheBlock : Prop :=
  ∀ s : State, Inv s → singleHost s.host = true → ∃ t, step s = .next t ∧ singleHost t.host = true

/-- A host that keeps the one-in-flight rule, starting with none outstanding (R177, R178; the rule is the host's, its form log 20): the
operations it runs put whole frames on the transmit stream, one for each operation that sends one, and nothing else; and of these just
as many are request frames as round trips have ended, and one more if a round trip is still open. A check or a failed receive made
with no request outstanding ends no round trip and is not counted. -/
def Obligations.DisciplinedHostHasOneRequestOutstanding : Prop :=
  ∀ (is : List Instr) (s t : State) (es : List Exchange) (w : RoundTrip),
    run is s = some (es, t) → follow .idle es = some w →
    ∃ fs : List (Byte × List Byte), (∀ f ∈ fs, f.2.length ≤ 255) ∧
      t.tx = s.tx ++ fs.flatMap (fun f => frameBytes f.1 f.2) ∧
      fs.length = (is.filter sendsFrame).length ∧
      (fs.filter fun f => decide (f.1.toNat < 128)).length =
        roundTripsEnded .idle es + (if w = .idle then 0 else 1)

/-- `sendsFrame` is true of exactly the operations that append bytes to the transmit stream: such an operation always goes on and appends
one whole frame; any other leaves the stream as it is (R40, which the spec derives from the operations' rules, and R45). -/
def Obligations.SendsFrameExactlyWhenBytesAreEmitted : Prop :=
  ∀ (i : Instr) (s : State),
    (sendsFrame i = true → ∃ t c p, exec i s = .next t ∧ p.length ≤ 255 ∧ t.tx = s.tx ++ frameBytes c p ∧ t.tx ≠ s.tx) ∧
    (sendsFrame i = false → ∀ t, exec i s = .next t → t.tx = s.tx)

/-- One request in flight (R177): in a run of a host that keeps the rule, between a request and the next request either receiving the
response failed, or DECODE or RX_BYTE returned a frame and after that this frame was checked against the first request's code (the
rule is the host's; that a failed receive ends a round trip is log 20). -/
def Obligations.NextRequestWaitsForTheCheckedResponse : Prop :=
  ∀ (before mid : List Instr) (i j : Instr) (c d : Byte) (s t : State) (es : List Exchange),
    run (before ++ [i] ++ mid ++ [j]) s = some (es, t) → oneInFlight es = true → SendsRequest i c → SendsRequest j d →
    ∃ es0 es1 es2, es = es0 ++ es1 ++ es2 ∧ es0.map Exchange.instr = before ++ [i] ∧ es1.map Exchange.instr = mid ∧
      es2.map Exchange.instr = [j] ∧
      ((∃ e ∈ es1, FailsToReceive e) ∨
       ∃ a b z x y f, es1 = a ++ [x] ++ b ++ [y] ++ z ∧ Receives x f ∧ Checks y c f)
end

