-- ==== Sys2Proof/Laws/Config.lean ====
section
/-!
SUPPORT. The parameters the block runs at, one lemma per parameter R9 gives a value, and what the response bit then says of a code.
-/

namespace Sys2Proof.Config

@[simp] theorem params_addr : params.addr = 0x00#8 := rfl
@[simp] theorem params_maxPayload : params.maxPayload.val = 255 := rfl
@[simp] theorem params_respBit : params.respBit = 0x80#8 := rfl
@[simp] theorem params_nSlots : params.nSlots.val = 6 := rfl
@[simp] theorem params_nMod : params.nMod.val = 8 := rfl
@[simp] theorem params_kbReportLen : params.kbReportLen.val = 8 := rfl

end Sys2Proof.Config

namespace Sys2Proof

/-- A response code has bit 7 set, so it is at least 0x80 (R62). -/
@[simp] theorem isResponseCode_params (c : Byte) : isResponseCode Config.params c = decide (128 ≤ c.toNat) := by
  revert c; unfold isResponseCode; simp only [Config.params_respBit]; decide

@[simp] theorem responseCode_params (c : Byte) : responseCode Config.params c = c ||| 0x80#8 := rfl

/-- The number of a response code to a request code (R64). -/
theorem responseCode_toNat {c : Byte} (h : c.toNat < 128) : (responseCode Config.params c).toNat = c.toNat + 128 := by
  revert c; simp only [responseCode_params]; decide

@[simp] theorem requestCode_params (c : Byte) : requestCode Config.params c = c &&& 0x7F#8 := rfl

end Sys2Proof
end

