-- ==== Sys2Proof/Laws/State.lean ====
section
/-!
SUPPORT. One lemma per field per update of the state, so that no later proof unfolds a record update.
-/

namespace Sys2Proof.Machine

/-! ## returnOk -/

@[simp] theorem returnOk_kbMod (r : Result) (s : State) : (returnOk r s).kbMod = s.kbMod := rfl
@[simp] theorem returnOk_kbSlot (r : Result) (s : State) : (returnOk r s).kbSlot = s.kbSlot := rfl
@[simp] theorem returnOk_rxPhase (r : Result) (s : State) : (returnOk r s).rxPhase = s.rxPhase := rfl
@[simp] theorem returnOk_rxSum (r : Result) (s : State) : (returnOk r s).rxSum = s.rxSum := rfl
@[simp] theorem returnOk_rxSyncOk (r : Result) (s : State) : (returnOk r s).rxSyncOk = s.rxSyncOk := rfl
@[simp] theorem returnOk_rxAddr (r : Result) (s : State) : (returnOk r s).rxAddr = s.rxAddr := rfl
@[simp] theorem returnOk_rxCmd (r : Result) (s : State) : (returnOk r s).rxCmd = s.rxCmd := rfl
@[simp] theorem returnOk_rxLen (r : Result) (s : State) : (returnOk r s).rxLen = s.rxLen := rfl
@[simp] theorem returnOk_rxIdx (r : Result) (s : State) : (returnOk r s).rxIdx = s.rxIdx := rfl
@[simp] theorem returnOk_rxBuf (r : Result) (s : State) : (returnOk r s).rxBuf = s.rxBuf := rfl
@[simp] theorem returnOk_host (r : Result) (s : State) : (returnOk r s).host = s.host := rfl
@[simp] theorem returnOk_response (r : Result) (s : State) : (returnOk r s).response = some ⟨.ok, r, []⟩ := rfl
@[simp] theorem returnOk_tx (r : Result) (s : State) : (returnOk r s).tx = s.tx := rfl

/-! ## emitOk -/

@[simp] theorem emitOk_kbMod (w : List Byte) (s : State) : (emitOk w s).kbMod = s.kbMod := rfl
@[simp] theorem emitOk_kbSlot (w : List Byte) (s : State) : (emitOk w s).kbSlot = s.kbSlot := rfl
@[simp] theorem emitOk_rxPhase (w : List Byte) (s : State) : (emitOk w s).rxPhase = s.rxPhase := rfl
@[simp] theorem emitOk_rxSum (w : List Byte) (s : State) : (emitOk w s).rxSum = s.rxSum := rfl
@[simp] theorem emitOk_rxSyncOk (w : List Byte) (s : State) : (emitOk w s).rxSyncOk = s.rxSyncOk := rfl
@[simp] theorem emitOk_rxAddr (w : List Byte) (s : State) : (emitOk w s).rxAddr = s.rxAddr := rfl
@[simp] theorem emitOk_rxCmd (w : List Byte) (s : State) : (emitOk w s).rxCmd = s.rxCmd := rfl
@[simp] theorem emitOk_rxLen (w : List Byte) (s : State) : (emitOk w s).rxLen = s.rxLen := rfl
@[simp] theorem emitOk_rxIdx (w : List Byte) (s : State) : (emitOk w s).rxIdx = s.rxIdx := rfl
@[simp] theorem emitOk_rxBuf (w : List Byte) (s : State) : (emitOk w s).rxBuf = s.rxBuf := rfl
@[simp] theorem emitOk_host (w : List Byte) (s : State) : (emitOk w s).host = s.host := rfl
@[simp] theorem emitOk_response (w : List Byte) (s : State) : (emitOk w s).response = some ⟨.ok, .emitted w, w⟩ := rfl
@[simp] theorem emitOk_tx (w : List Byte) (s : State) : (emitOk w s).tx = s.tx ++ w := rfl

/-! ## raise -/

@[simp] theorem raise_kbMod (e : Error) (s : State) : (raise e s).kbMod = s.kbMod := rfl
@[simp] theorem raise_kbSlot (e : Error) (s : State) : (raise e s).kbSlot = s.kbSlot := rfl
@[simp] theorem raise_rxPhase (e : Error) (s : State) : (raise e s).rxPhase = s.rxPhase := rfl
@[simp] theorem raise_rxSum (e : Error) (s : State) : (raise e s).rxSum = s.rxSum := rfl
@[simp] theorem raise_rxSyncOk (e : Error) (s : State) : (raise e s).rxSyncOk = s.rxSyncOk := rfl
@[simp] theorem raise_rxAddr (e : Error) (s : State) : (raise e s).rxAddr = s.rxAddr := rfl
@[simp] theorem raise_rxCmd (e : Error) (s : State) : (raise e s).rxCmd = s.rxCmd := rfl
@[simp] theorem raise_rxLen (e : Error) (s : State) : (raise e s).rxLen = s.rxLen := rfl
@[simp] theorem raise_rxIdx (e : Error) (s : State) : (raise e s).rxIdx = s.rxIdx := rfl
@[simp] theorem raise_rxBuf (e : Error) (s : State) : (raise e s).rxBuf = s.rxBuf := rfl
@[simp] theorem raise_host (e : Error) (s : State) : (raise e s).host = s.host := rfl
@[simp] theorem raise_response (e : Error) (s : State) : (raise e s).response = some ⟨.error e, .nothing, []⟩ := rfl
@[simp] theorem raise_tx (e : Error) (s : State) : (raise e s).tx = s.tx := rfl

/-! ## rxIdle -/

@[simp] theorem rxIdle_kbMod (s : State) : (rxIdle s).kbMod = s.kbMod := rfl
@[simp] theorem rxIdle_kbSlot (s : State) : (rxIdle s).kbSlot = s.kbSlot := rfl
@[simp] theorem rxIdle_rxPhase (s : State) : (rxIdle s).rxPhase = .h0 := rfl
@[simp] theorem rxIdle_rxSum (s : State) : (rxIdle s).rxSum = s.rxSum := rfl
@[simp] theorem rxIdle_rxSyncOk (s : State) : (rxIdle s).rxSyncOk = s.rxSyncOk := rfl
@[simp] theorem rxIdle_rxAddr (s : State) : (rxIdle s).rxAddr = s.rxAddr := rfl
@[simp] theorem rxIdle_rxCmd (s : State) : (rxIdle s).rxCmd = s.rxCmd := rfl
@[simp] theorem rxIdle_rxLen (s : State) : (rxIdle s).rxLen = s.rxLen := rfl
@[simp] theorem rxIdle_rxIdx (s : State) : (rxIdle s).rxIdx = s.rxIdx := rfl
@[simp] theorem rxIdle_rxBuf (s : State) : (rxIdle s).rxBuf = s.rxBuf := rfl
@[simp] theorem rxIdle_host (s : State) : (rxIdle s).host = s.host := rfl
@[simp] theorem rxIdle_response (s : State) : (rxIdle s).response = s.response := rfl
@[simp] theorem rxIdle_tx (s : State) : (rxIdle s).tx = s.tx := rfl

/-! ## resetRegisters -/

@[simp] theorem resetRegisters_kbMod (s : State) : (resetRegisters s).kbMod = State.reset.kbMod := rfl
@[simp] theorem resetRegisters_kbSlot (s : State) : (resetRegisters s).kbSlot = State.reset.kbSlot := rfl
@[simp] theorem resetRegisters_rxPhase (s : State) : (resetRegisters s).rxPhase = State.reset.rxPhase := rfl
@[simp] theorem resetRegisters_rxSum (s : State) : (resetRegisters s).rxSum = State.reset.rxSum := rfl
@[simp] theorem resetRegisters_rxSyncOk (s : State) : (resetRegisters s).rxSyncOk = State.reset.rxSyncOk := rfl
@[simp] theorem resetRegisters_rxAddr (s : State) : (resetRegisters s).rxAddr = State.reset.rxAddr := rfl
@[simp] theorem resetRegisters_rxCmd (s : State) : (resetRegisters s).rxCmd = State.reset.rxCmd := rfl
@[simp] theorem resetRegisters_rxLen (s : State) : (resetRegisters s).rxLen = State.reset.rxLen := rfl
@[simp] theorem resetRegisters_rxIdx (s : State) : (resetRegisters s).rxIdx = State.reset.rxIdx := rfl
@[simp] theorem resetRegisters_rxBuf (s : State) : (resetRegisters s).rxBuf = State.reset.rxBuf := rfl
@[simp] theorem resetRegisters_host (s : State) : (resetRegisters s).host = s.host := rfl
@[simp] theorem resetRegisters_response (s : State) : (resetRegisters s).response = State.reset.response := rfl
@[simp] theorem resetRegisters_tx (s : State) : (resetRegisters s).tx = s.tx := rfl

/-! ## finish and sendFrame: the registers and the host's events, whichever way they end -/

@[simp] theorem finish_kbMod (o : Except Error Result) (s : State) : (finish o s).kbMod = s.kbMod := by
  cases o <;> rfl
@[simp] theorem finish_kbSlot (o : Except Error Result) (s : State) : (finish o s).kbSlot = s.kbSlot := by
  cases o <;> rfl
@[simp] theorem finish_rxPhase (o : Except Error Result) (s : State) : (finish o s).rxPhase = s.rxPhase := by
  cases o <;> rfl
@[simp] theorem finish_rxSum (o : Except Error Result) (s : State) : (finish o s).rxSum = s.rxSum := by
  cases o <;> rfl
@[simp] theorem finish_rxSyncOk (o : Except Error Result) (s : State) : (finish o s).rxSyncOk = s.rxSyncOk := by
  cases o <;> rfl
@[simp] theorem finish_rxAddr (o : Except Error Result) (s : State) : (finish o s).rxAddr = s.rxAddr := by
  cases o <;> rfl
@[simp] theorem finish_rxCmd (o : Except Error Result) (s : State) : (finish o s).rxCmd = s.rxCmd := by
  cases o <;> rfl
@[simp] theorem finish_rxLen (o : Except Error Result) (s : State) : (finish o s).rxLen = s.rxLen := by
  cases o <;> rfl
@[simp] theorem finish_rxIdx (o : Except Error Result) (s : State) : (finish o s).rxIdx = s.rxIdx := by
  cases o <;> rfl
@[simp] theorem finish_rxBuf (o : Except Error Result) (s : State) : (finish o s).rxBuf = s.rxBuf := by
  cases o <;> rfl
@[simp] theorem finish_host (o : Except Error Result) (s : State) : (finish o s).host = s.host := by
  cases o <;> rfl
@[simp] theorem finish_tx (o : Except Error Result) (s : State) : (finish o s).tx = s.tx := by
  cases o <;> rfl

@[simp] theorem sendFrame_kbMod (P : Config.Params) (c : Byte) (p : List Byte) (s : State) :
    (sendFrame P c p s).kbMod = s.kbMod := by
  unfold sendFrame; split <;> rfl
@[simp] theorem sendFrame_kbSlot (P : Config.Params) (c : Byte) (p : List Byte) (s : State) :
    (sendFrame P c p s).kbSlot = s.kbSlot := by
  unfold sendFrame; split <;> rfl
@[simp] theorem sendFrame_rxPhase (P : Config.Params) (c : Byte) (p : List Byte) (s : State) :
    (sendFrame P c p s).rxPhase = s.rxPhase := by
  unfold sendFrame; split <;> rfl
@[simp] theorem sendFrame_rxSum (P : Config.Params) (c : Byte) (p : List Byte) (s : State) :
    (sendFrame P c p s).rxSum = s.rxSum := by
  unfold sendFrame; split <;> rfl
@[simp] theorem sendFrame_rxSyncOk (P : Config.Params) (c : Byte) (p : List Byte) (s : State) :
    (sendFrame P c p s).rxSyncOk = s.rxSyncOk := by
  unfold sendFrame; split <;> rfl
@[simp] theorem sendFrame_rxAddr (P : Config.Params) (c : Byte) (p : List Byte) (s : State) :
    (sendFrame P c p s).rxAddr = s.rxAddr := by
  unfold sendFrame; split <;> rfl
@[simp] theorem sendFrame_rxCmd (P : Config.Params) (c : Byte) (p : List Byte) (s : State) :
    (sendFrame P c p s).rxCmd = s.rxCmd := by
  unfold sendFrame; split <;> rfl
@[simp] theorem sendFrame_rxLen (P : Config.Params) (c : Byte) (p : List Byte) (s : State) :
    (sendFrame P c p s).rxLen = s.rxLen := by
  unfold sendFrame; split <;> rfl
@[simp] theorem sendFrame_rxIdx (P : Config.Params) (c : Byte) (p : List Byte) (s : State) :
    (sendFrame P c p s).rxIdx = s.rxIdx := by
  unfold sendFrame; split <;> rfl
@[simp] theorem sendFrame_rxBuf (P : Config.Params) (c : Byte) (p : List Byte) (s : State) :
    (sendFrame P c p s).rxBuf = s.rxBuf := by
  unfold sendFrame; split <;> rfl
@[simp] theorem sendFrame_host (P : Config.Params) (c : Byte) (p : List Byte) (s : State) :
    (sendFrame P c p s).host = s.host := by
  unfold sendFrame; split <;> rfl

end Sys2Proof.Machine
end

