-- ==== Sys2Proof/Laws/Ops.lean ====
section
/-!
SUPPORT. What the shared operations do, said once: byte sums, the wire form, the ends of a transaction, the candidate frame, and the two slot
scans.
-/

namespace Sys2Proof.Machine

/-! ## Byte sums -/

@[simp] theorem sum8_nil : sum8 [] = 0x00#8 := rfl

@[simp] theorem sum8_cons (b : Byte) (bs : List Byte) : sum8 (b :: bs) = b + sum8 bs := rfl

@[simp] theorem sum8_append (a b : List Byte) : sum8 (a ++ b) = sum8 a + sum8 b := by
  induction a with
  | nil => simp
  | cons x xs ih => simp [ih, BitVec.add_assoc]

/-- The byte sum is the low byte of the sum in natural numbers (R58). -/
theorem sum8_eq_ofNat (l : List Byte) : sum8 l = BitVec.ofNat 8 (l.map BitVec.toNat).sum := by
  induction l with
  | nil => rfl
  | cons x xs ih => simp [ih, BitVec.ofNat_add]

/-- The byte sum does not depend on the order of the bytes (R90). -/
theorem sum8_perm {a b : List Byte} (h : a.Perm b) : sum8 a = sum8 b := by
  rw [sum8_eq_ofNat, sum8_eq_ofNat, (h.map _).sum_eq]

/-! ## The wire form -/

@[simp] theorem header_length (P : Config.Params) (f : Frame) : (header P f).length = 5 := rfl

@[simp] theorem wire_length (P : Config.Params) (f : Frame) : (wire P f).length = 6 + f.payload.length := by
  simp only [wire, List.length_append, header_length, List.length_cons, List.length_nil]; omega

/-- The length byte of a payload that fits reads back as its length (R60). -/
theorem lengthByte_toNat {p : List Byte} (h : p.length ≤ 255) : (lengthByte p).toNat = p.length := by
  simp only [lengthByte, BitVec.toNat_ofNat]; omega

/-! ## The ends of a transaction -/

/-- A payload that fits is sent whole (R45, R89). -/
theorem sendFrame_fits {P : Config.Params} {c : Byte} {p : List Byte} {s : State} (h : p.length ≤ P.maxPayload.val) :
    sendFrame P c p s = emitOk (wire P ⟨P.addr, c, p⟩) s := by
  simp [sendFrame, Nat.not_lt.mpr h]

/-- A payload that does not fit raises PayloadTooLong (R89, R147). -/
theorem sendFrame_tooLong {P : Config.Params} {c : Byte} {p : List Byte} {s : State} (h : P.maxPayload.val < p.length) :
    sendFrame P c p s = raise (.payloadTooLong p.length) s := by
  simp [sendFrame, h]

/-- At the block's parameters a payload of at most 255 bytes is sent whole. -/
theorem sendFrame_params_fits {c : Byte} {p : List Byte} {s : State} (h : p.length ≤ 255) :
    sendFrame Config.params c p s = emitOk (wire Config.params ⟨0x00#8, c, p⟩) s := sendFrame_fits h

/-- At the block's parameters a payload of more than 255 bytes is rejected. -/
theorem sendFrame_params_tooLong {c : Byte} {p : List Byte} {s : State} (h : 255 < p.length) :
    sendFrame Config.params c p s = raise (.payloadTooLong p.length) s := sendFrame_tooLong h

@[simp] theorem finish_ok (r : Result) (s : State) : finish (.ok r) s = returnOk r s := rfl

@[simp] theorem finish_error (e : Error) (s : State) : finish (.error e) s = raise e s := rfl

/-- `finish` either returns the result or raises the error. -/
theorem finish_cases (o : Except Error Result) (s : State) :
    (∃ r, o = .ok r ∧ finish o s = returnOk r s) ∨ (∃ e, o = .error e ∧ finish o s = raise e s) := by
  cases o with
  | ok r => exact .inl ⟨r, rfl, rfl⟩
  | error e => exact .inr ⟨e, rfl, rfl⟩

/-! ## The candidate frame -/

/-- A sequence that holds the bytes its length byte announces has that candidate frame (R91). -/
theorem candidate_whole (b0 b1 b2 b3 b4 : Byte) (p : List Byte) (cs : Byte) (rest : List Byte) (h : p.length = b4.toNat) :
    candidate ([b0, b1, b2, b3, b4] ++ p ++ [cs] ++ rest) =
      some ⟨[b0, b1, b2, b3, b4], b0, b1, ⟨b2, b3, p⟩, cs, sum8 ([b0, b1, b2, b3, b4] ++ p), 6 + b4.toNat, rest⟩ := by
  simp [candidate, ← h]

/-- A sequence has no candidate frame exactly when it is shorter than its length byte says, or than a header (R91, R95). -/
theorem candidate_none_iff (s : List Byte) :
    candidate s = none ↔ s.length < 5 ∨ ∃ l : Byte, s[4]? = some l ∧ s.length < 6 + l.toNat := by
  match s with
  | [] => simp [candidate]
  | [_] => simp [candidate]
  | [_, _] => simp [candidate]
  | [_, _, _] => simp [candidate]
  | [_, _, _, _] => simp [candidate]
  | b0 :: b1 :: b2 :: b3 :: b4 :: body =>
    cases h : body.drop b4.toNat with
    | nil => simp [candidate, h]; have := List.drop_eq_nil_iff.mp h; omega
    | cons x xs =>
      simp [candidate, h]
      have := congrArg List.length h
      simp at this; omega

/-- Every sequence has no candidate frame or is five header bytes, the payload they announce, a checksum byte and a rest. -/
theorem candidate_split (s : List Byte) :
    candidate s = none ∨
      ∃ b0 b1 b2 b3 b4 p cs rest, s = [b0, b1, b2, b3, b4] ++ p ++ [cs] ++ rest ∧ p.length = b4.toNat := by
  match s with
  | [] | [_] | [_, _] | [_, _, _] | [_, _, _, _] => exact .inl rfl
  | b0 :: b1 :: b2 :: b3 :: b4 :: body =>
    cases h : body.drop b4.toNat with
    | nil => left; simp [candidate, h]
    | cons x xs =>
      refine .inr ⟨b0, b1, b2, b3, b4, body.take b4.toNat, x, xs, ?_, ?_⟩
      · simp [← h]
      · have := congrArg List.length h
        simp at this ⊢; omega

/-- DECODE of a whole frame (R92). -/
theorem parseFrame_whole (P : Config.Params) (b0 b1 b2 b3 b4 : Byte) (p : List Byte) (cs : Byte) (rest : List Byte)
    (h : p.length = b4.toNat) :
    parseFrame P ([b0, b1, b2, b3, b4] ++ p ++ [cs] ++ rest) =
      if b0 ≠ P.syncHi ∨ b1 ≠ P.syncLo ∨ b2 ≠ P.addr then
        .error (.headerError (some [b0, b1, b2, b3, b4]) (6 + b4.toNat))
      else if cs ≠ sum8 ([b0, b1, b2, b3, b4] ++ p) then
        .error (.checksumError cs (sum8 ([b0, b1, b2, b3, b4] ++ p)) (6 + b4.toNat))
      else .ok (.decoded ⟨b2, b3, p⟩ rest) := by
  rw [parseFrame, candidate_whole _ _ _ _ _ _ _ _ h]

/-- DECODE of a whole frame at the block's parameters. -/
theorem parseFrame_params_whole (b0 b1 b2 b3 b4 : Byte) (p : List Byte) (cs : Byte) (rest : List Byte)
    (h : p.length = b4.toNat) :
    parseFrame Config.params ([b0, b1, b2, b3, b4] ++ p ++ [cs] ++ rest) =
      if b0 ≠ Config.params.syncHi ∨ b1 ≠ Config.params.syncLo ∨ b2 ≠ 0x00#8 then
        .error (.headerError (some [b0, b1, b2, b3, b4]) (6 + b4.toNat))
      else if cs ≠ sum8 ([b0, b1, b2, b3, b4] ++ p) then
        .error (.checksumError cs (sum8 ([b0, b1, b2, b3, b4] ++ p)) (6 + b4.toNat))
      else .ok (.decoded ⟨b2, b3, p⟩ rest) :=
  parseFrame_whole Config.params b0 b1 b2 b3 b4 p cs rest h

/-- DECODE of a sequence with no whole frame (R95). -/
theorem parseFrame_none {P : Config.Params} {s : List Byte} (h : candidate s = none) :
    parseFrame P s = .error (.truncated s.length) := by
  rw [parseFrame, h]

/-! ## The slot scans -/

/-- A press writes the first slot that is empty or holds the code (R114). -/
theorem pressScan_first {c x : Byte} {l : List Byte} {i : Nat} (hi : l[i]? = some x) (hx : x = 0x00#8 ∨ x = c)
    (hbefore : ∀ j y, j < i → l[j]? = some y → y ≠ 0x00#8 ∧ y ≠ c) : pressScan c l = l.set i c := by
  induction l generalizing i with
  | nil => simp at hi
  | cons a as ih =>
    cases i with
    | zero =>
      have : a = x := by simpa using hi
      simp [pressScan, this, hx]
    | succ k =>
      have ha := hbefore 0 a (by omega) rfl
      have : ¬ (a = 0x00#8 ∨ a = c) := by rintro (h | h) <;> simp_all
      simp only [pressScan, if_neg this, List.set_cons_succ]
      rw [ih (by simpa using hi) fun j y hj hy => hbefore (j + 1) y (by omega) (by simpa using hy)]

/-- With no slot empty or matching, a press changes nothing (R115). -/
theorem pressScan_full {c : Byte} {l : List Byte} (h : ∀ x ∈ l, x ≠ 0x00#8 ∧ x ≠ c) : pressScan c l = l := by
  induction l with
  | nil => rfl
  | cons a as ih =>
    have ha := h a (by simp)
    have : ¬ (a = 0x00#8 ∨ a = c) := by rintro (h | h) <;> simp_all
    simp only [pressScan, if_neg this]
    rw [ih fun x hx => h x (by simp [hx])]

/-- Either some slot is the first to be empty or match, or none is. -/
theorem pressScan_cases (c : Byte) (l : List Byte) :
    (∃ i x, l[i]? = some x ∧ (x = 0x00#8 ∨ x = c) ∧ (∀ j y, j < i → l[j]? = some y → y ≠ 0x00#8 ∧ y ≠ c) ∧
        pressScan c l = l.set i c) ∨
      ((∀ x ∈ l, x ≠ 0x00#8 ∧ x ≠ c) ∧ pressScan c l = l) := by
  by_cases h : ∀ x ∈ l, x ≠ 0x00#8 ∧ x ≠ c
  · exact .inr ⟨h, pressScan_full h⟩
  · left
    induction l with
    | nil => simp at h
    | cons a as ih =>
      by_cases ha : a = 0x00#8 ∨ a = c
      · exact ⟨0, a, rfl, ha, by intro j y hj; omega, by simp [pressScan, ha]⟩
      · have ha' : a ≠ 0x00#8 ∧ a ≠ c := ⟨fun e => ha (.inl e), fun e => ha (.inr e)⟩
        have has : ¬ ∀ x ∈ as, x ≠ 0x00#8 ∧ x ≠ c := fun hall => h fun x hx => by
          rcases List.mem_cons.mp hx with rfl | hx
          · exact ha'
          · exact hall x hx
        obtain ⟨i, x, hi, hx, hb, he⟩ := ih has
        refine ⟨i + 1, x, by simpa using hi, hx, ?_, by simp [pressScan, ha, he]⟩
        intro j y hj hy
        cases j with
        | zero => simp at hy; exact hy ▸ ha'
        | succ k => exact hb k y (by omega) (by simpa using hy)

/-- A release acts on each slot by itself (R117). -/
theorem releaseScan_eq_map (c : Byte) (l : List Byte) :
    releaseScan c l = l.map fun x => if x = c then 0x00#8 else x := by
  induction l with
  | nil => rfl
  | cons x xs ih => simp [releaseScan, ih]

/-- A scan acts on the slots in use and leaves the others. -/
theorem scanSlots_toList (P : Config.Params) (scan : List Byte → List Byte) (v : Vector Byte Config.nSlots)
    (h : ∀ l, (scan l).length = l.length) :
    (scanSlots P scan v h).toList = scan (v.toList.take P.nSlots) ++ v.toList.drop P.nSlots := by
  simp [scanSlots, Vector.toList]

/-- All six slots are in use. -/
theorem slots_take (v : Vector Byte Config.nSlots) : v.toList.take Config.params.nSlots.val = v.toList :=
  List.take_of_length_le (by simp)

/-- A press scans all six slots (R114). -/
@[simp] theorem pressSlots_toList (c : Byte) (v : Vector Byte Config.nSlots) :
    (pressSlots Config.params c v).toList = pressScan c v.toList := by
  rw [pressSlots, scanSlots_toList, slots_take, List.drop_of_length_le (by simp), List.append_nil]

/-- A release scans all six slots (R117). -/
@[simp] theorem releaseSlots_toList (c : Byte) (v : Vector Byte Config.nSlots) :
    (releaseSlots Config.params c v).toList = releaseScan c v.toList := by
  rw [releaseSlots, scanSlots_toList, slots_take, List.drop_of_length_le (by simp), List.append_nil]

end Sys2Proof.Machine
end

