-- ==== Sys2Proof/Laws/Keyboard.lean ====
section
/-!
SUPPORT. What a key press or release does to the state, field by field, and the facts about modifier codes the claims need.
-/

namespace Sys2Proof.Machine

/-! ## Modifier codes -/

/-- `MOD_BASE` as a number (log 2). -/
theorem modBase_toNat (P : Config.Params) : P.modBase.toNat = P.modOffset.val + 1 := by
  have := P.modOffset.isLt
  simp only [Config.Params.modBase, BitVec.toNat_ofNat]; omega

/-- The modifier codes as a range of numbers (R112). -/
theorem isModifier_iff (P : Config.Params) (c : Byte) :
    isModifier P c = true ↔ P.modBase.toNat ≤ c.toNat ∧ c.toNat < P.modBase.toNat + P.nMod.val := by
  rw [isModifier, decide_eq_true_iff]

/-- The eight modifier codes of the block (R112). -/
theorem isModifier_params_iff (c : Byte) :
    isModifier Config.params c = true ↔
      Config.params.modBase.toNat ≤ c.toNat ∧ c.toNat ≤ Config.params.modBase.toNat + 7 := by
  rw [isModifier_iff, Config.params_nMod]; omega

/-- 0x00 is no modifier code (R111; log 2). -/
@[simp] theorem isModifier_zero (P : Config.Params) : isModifier P 0x00#8 = false := by
  have := modBase_toNat P
  simp [isModifier, this]

/-- Whether a code is a modifier does not depend on the update mode. -/
@[simp] theorem isModifier_modUpdate (P : Config.Params) (u : Config.ModUpdate) (c : Byte) :
    isModifier { P with modUpdate := u } c = isModifier P c := rfl

/-! ## pressKey and releaseKey -/

theorem pressKey_modifier {P : Config.Params} {c : Byte} {s : State} (h : isModifier P c = true) :
    pressKey P c s = { s with kbMod := pressModifier P c s.kbMod } := by simp [pressKey, h]

theorem pressKey_key {P : Config.Params} {c : Byte} {s : State} (h : isModifier P c = false) :
    pressKey P c s = { s with kbSlot := pressSlots P c s.kbSlot } := by simp [pressKey, h]

theorem releaseKey_modifier {P : Config.Params} {c : Byte} {s : State} (h : isModifier P c = true) :
    releaseKey P c s = { s with kbMod := releaseModifier P c s.kbMod } := by simp [releaseKey, h]

theorem releaseKey_key {P : Config.Params} {c : Byte} {s : State} (h : isModifier P c = false) :
    releaseKey P c s = { s with kbSlot := releaseSlots P c s.kbSlot } := by simp [releaseKey, h]

@[simp] theorem pressKey_rxPhase (P : Config.Params) (c : Byte) (s : State) : (pressKey P c s).rxPhase = s.rxPhase := by
  unfold pressKey; split <;> rfl
@[simp] theorem pressKey_rxSum (P : Config.Params) (c : Byte) (s : State) : (pressKey P c s).rxSum = s.rxSum := by
  unfold pressKey; split <;> rfl
@[simp] theorem pressKey_rxSyncOk (P : Config.Params) (c : Byte) (s : State) : (pressKey P c s).rxSyncOk = s.rxSyncOk := by
  unfold pressKey; split <;> rfl
@[simp] theorem pressKey_rxAddr (P : Config.Params) (c : Byte) (s : State) : (pressKey P c s).rxAddr = s.rxAddr := by
  unfold pressKey; split <;> rfl
@[simp] theorem pressKey_rxCmd (P : Config.Params) (c : Byte) (s : State) : (pressKey P c s).rxCmd = s.rxCmd := by
  unfold pressKey; split <;> rfl
@[simp] theorem pressKey_rxLen (P : Config.Params) (c : Byte) (s : State) : (pressKey P c s).rxLen = s.rxLen := by
  unfold pressKey; split <;> rfl
@[simp] theorem pressKey_rxIdx (P : Config.Params) (c : Byte) (s : State) : (pressKey P c s).rxIdx = s.rxIdx := by
  unfold pressKey; split <;> rfl
@[simp] theorem pressKey_rxBuf (P : Config.Params) (c : Byte) (s : State) : (pressKey P c s).rxBuf = s.rxBuf := by
  unfold pressKey; split <;> rfl
@[simp] theorem pressKey_host (P : Config.Params) (c : Byte) (s : State) : (pressKey P c s).host = s.host := by
  unfold pressKey; split <;> rfl
@[simp] theorem pressKey_response (P : Config.Params) (c : Byte) (s : State) : (pressKey P c s).response = s.response := by
  unfold pressKey; split <;> rfl
@[simp] theorem pressKey_tx (P : Config.Params) (c : Byte) (s : State) : (pressKey P c s).tx = s.tx := by
  unfold pressKey; split <;> rfl

@[simp] theorem releaseKey_rxPhase (P : Config.Params) (c : Byte) (s : State) : (releaseKey P c s).rxPhase = s.rxPhase := by
  unfold releaseKey; split <;> rfl
@[simp] theorem releaseKey_rxSum (P : Config.Params) (c : Byte) (s : State) : (releaseKey P c s).rxSum = s.rxSum := by
  unfold releaseKey; split <;> rfl
@[simp] theorem releaseKey_rxSyncOk (P : Config.Params) (c : Byte) (s : State) : (releaseKey P c s).rxSyncOk = s.rxSyncOk := by
  unfold releaseKey; split <;> rfl
@[simp] theorem releaseKey_rxAddr (P : Config.Params) (c : Byte) (s : State) : (releaseKey P c s).rxAddr = s.rxAddr := by
  unfold releaseKey; split <;> rfl
@[simp] theorem releaseKey_rxCmd (P : Config.Params) (c : Byte) (s : State) : (releaseKey P c s).rxCmd = s.rxCmd := by
  unfold releaseKey; split <;> rfl
@[simp] theorem releaseKey_rxLen (P : Config.Params) (c : Byte) (s : State) : (releaseKey P c s).rxLen = s.rxLen := by
  unfold releaseKey; split <;> rfl
@[simp] theorem releaseKey_rxIdx (P : Config.Params) (c : Byte) (s : State) : (releaseKey P c s).rxIdx = s.rxIdx := by
  unfold releaseKey; split <;> rfl
@[simp] theorem releaseKey_rxBuf (P : Config.Params) (c : Byte) (s : State) : (releaseKey P c s).rxBuf = s.rxBuf := by
  unfold releaseKey; split <;> rfl
@[simp] theorem releaseKey_host (P : Config.Params) (c : Byte) (s : State) : (releaseKey P c s).host = s.host := by
  unfold releaseKey; split <;> rfl
@[simp] theorem releaseKey_response (P : Config.Params) (c : Byte) (s : State) : (releaseKey P c s).response = s.response := by
  unfold releaseKey; split <;> rfl
@[simp] theorem releaseKey_tx (P : Config.Params) (c : Byte) (s : State) : (releaseKey P c s).tx = s.tx := by
  unfold releaseKey; split <;> rfl

/-! ## keyDownState and keyUpState -/

@[simp] theorem keyDownState_kbMod (P : Config.Params) (c : Byte) (s : State) :
    (keyDownState P c s).kbMod = (pressKey P c s).kbMod := rfl
@[simp] theorem keyDownState_kbSlot (P : Config.Params) (c : Byte) (s : State) :
    (keyDownState P c s).kbSlot = (pressKey P c s).kbSlot := rfl
@[simp] theorem keyDownState_rxPhase (P : Config.Params) (c : Byte) (s : State) : (keyDownState P c s).rxPhase = s.rxPhase := by
  simp [keyDownState, sendKbState]
@[simp] theorem keyDownState_rxSum (P : Config.Params) (c : Byte) (s : State) : (keyDownState P c s).rxSum = s.rxSum := by
  simp [keyDownState, sendKbState]
@[simp] theorem keyDownState_rxSyncOk (P : Config.Params) (c : Byte) (s : State) : (keyDownState P c s).rxSyncOk = s.rxSyncOk := by
  simp [keyDownState, sendKbState]
@[simp] theorem keyDownState_rxAddr (P : Config.Params) (c : Byte) (s : State) : (keyDownState P c s).rxAddr = s.rxAddr := by
  simp [keyDownState, sendKbState]
@[simp] theorem keyDownState_rxCmd (P : Config.Params) (c : Byte) (s : State) : (keyDownState P c s).rxCmd = s.rxCmd := by
  simp [keyDownState, sendKbState]
@[simp] theorem keyDownState_rxLen (P : Config.Params) (c : Byte) (s : State) : (keyDownState P c s).rxLen = s.rxLen := by
  simp [keyDownState, sendKbState]
@[simp] theorem keyDownState_rxIdx (P : Config.Params) (c : Byte) (s : State) : (keyDownState P c s).rxIdx = s.rxIdx := by
  simp [keyDownState, sendKbState]
@[simp] theorem keyDownState_rxBuf (P : Config.Params) (c : Byte) (s : State) : (keyDownState P c s).rxBuf = s.rxBuf := by
  simp [keyDownState, sendKbState]
@[simp] theorem keyDownState_host (P : Config.Params) (c : Byte) (s : State) : (keyDownState P c s).host = s.host := by
  simp [keyDownState, sendKbState]
@[simp] theorem keyDownState_tx (P : Config.Params) (c : Byte) (s : State) :
    (keyDownState P c s).tx = s.tx ++ kbFrame P (pressKey P c s) := by
  simp [keyDownState, sendKbState]
@[simp] theorem keyDownState_response (P : Config.Params) (c : Byte) (s : State) :
    (keyDownState P c s).response = some ⟨.ok, .emitted (kbFrame P (pressKey P c s)), kbFrame P (pressKey P c s)⟩ := rfl
@[simp] theorem keyUpState_kbMod (P : Config.Params) (c : Byte) (s : State) :
    (keyUpState P c s).kbMod = (releaseKey P c s).kbMod := rfl
@[simp] theorem keyUpState_kbSlot (P : Config.Params) (c : Byte) (s : State) :
    (keyUpState P c s).kbSlot = (releaseKey P c s).kbSlot := rfl
@[simp] theorem keyUpState_rxPhase (P : Config.Params) (c : Byte) (s : State) : (keyUpState P c s).rxPhase = s.rxPhase := by
  simp [keyUpState, sendKbState]
@[simp] theorem keyUpState_rxSum (P : Config.Params) (c : Byte) (s : State) : (keyUpState P c s).rxSum = s.rxSum := by
  simp [keyUpState, sendKbState]
@[simp] theorem keyUpState_rxSyncOk (P : Config.Params) (c : Byte) (s : State) : (keyUpState P c s).rxSyncOk = s.rxSyncOk := by
  simp [keyUpState, sendKbState]
@[simp] theorem keyUpState_rxAddr (P : Config.Params) (c : Byte) (s : State) : (keyUpState P c s).rxAddr = s.rxAddr := by
  simp [keyUpState, sendKbState]
@[simp] theorem keyUpState_rxCmd (P : Config.Params) (c : Byte) (s : State) : (keyUpState P c s).rxCmd = s.rxCmd := by
  simp [keyUpState, sendKbState]
@[simp] theorem keyUpState_rxLen (P : Config.Params) (c : Byte) (s : State) : (keyUpState P c s).rxLen = s.rxLen := by
  simp [keyUpState, sendKbState]
@[simp] theorem keyUpState_rxIdx (P : Config.Params) (c : Byte) (s : State) : (keyUpState P c s).rxIdx = s.rxIdx := by
  simp [keyUpState, sendKbState]
@[simp] theorem keyUpState_rxBuf (P : Config.Params) (c : Byte) (s : State) : (keyUpState P c s).rxBuf = s.rxBuf := by
  simp [keyUpState, sendKbState]
@[simp] theorem keyUpState_host (P : Config.Params) (c : Byte) (s : State) : (keyUpState P c s).host = s.host := by
  simp [keyUpState, sendKbState]
@[simp] theorem keyUpState_tx (P : Config.Params) (c : Byte) (s : State) :
    (keyUpState P c s).tx = s.tx ++ kbFrame P (releaseKey P c s) := by
  simp [keyUpState, sendKbState]
@[simp] theorem keyUpState_response (P : Config.Params) (c : Byte) (s : State) :
    (keyUpState P c s).response = some ⟨.ok, .emitted (kbFrame P (releaseKey P c s)), kbFrame P (releaseKey P c s)⟩ := rfl

/-- The report has the length the parameter gives (R67). -/
@[simp] theorem kbReport_length (P : Config.Params) (s : State) : (kbReport P s).length = P.kbReportLen.val := by
  simp [kbReport]

/-- The report is the modifier byte, the reserved byte and the six slots (R67, D15). -/
theorem kbReport_params (s : State) : kbReport Config.params s = s.kbMod :: 0x00#8 :: s.kbSlot.toList := by
  rw [kbReport, slots_take, List.takeD_eq_take _ (by simp)]
  exact List.take_of_length_le (by simp)

/-- The keyboard-state frame of the block is the frame of command 0x02 with that report (R118). -/
theorem kbFrame_params (s : State) :
    kbFrame Config.params s = wire Config.params ⟨0x00#8, 0x02#8, s.kbMod :: 0x00#8 :: s.kbSlot.toList⟩ := by
  rw [kbFrame, kbReport_params]; rfl

/-- The keyboard-state frame is fourteen bytes (R118). -/
@[simp] theorem kbFrame_length (s : State) : (kbFrame Config.params s).length = 14 := by simp [kbFrame]

/-- The slots as six bytes in index order. -/
theorem kbSlot_toList (v : Vector Byte Config.nSlots) : v.toList = [v[0], v[1], v[2], v[3], v[4], v[5]] := by
  apply List.ext_getElem
  · simp
  · intro i h _
    have : i < 6 := by simpa using h
    interval_cases i <;> simp

end Sys2Proof.Machine
end

