-- ==== Sys2Proof/Laws/PerInstr.lean ====
section
/-!
SUPPORT. One lemma per constructor of Instr about its encoding: what the encoder presents has the fixed bits that
spec/opcode_table.json gives the constructor's row.
-/

namespace Sys2Proof.Laws.EncodesAsRow

/-- The request is an operation word whose high byte is the row's match (a row with mask 0xFF00). -/
def IsHighByte (r : Request) (value : Nat) : Prop := ∃ w o, r = .op w o ∧ w.toNat / 256 = value

/-- The request is the operation word that is the row's match (a row with mask 0xFFFF). -/
def IsWord (r : Request) (value : OpWord) : Prop := ∃ w o, r = .op w o ∧ w = value

/-- The request is a wire command with the row's code. -/
def IsCode (r : Request) (code : Byte) : Prop := ∃ p, r = .command code p

/-- The encoder presents the row's fixed bits, for all open parameters. -/
def Statement (i : Instr) : Prop :=
  ∀ o : Config.OpenParams,
    match i with
    | .encode _ _ => IsHighByte (encodeWith o.withSpecValues i) 0x00
    | .decode _ => IsWord (encodeWith o.withSpecValues i) 0x0100#16
    | .classify _ => IsWord (encodeWith o.withSpecValues i) 0x0200#16
    | .matchResponse _ _ => IsHighByte (encodeWith o.withSpecValues i) 0x03
    | .keyDown _ => IsHighByte (encodeWith o.withSpecValues i) 0x04
    | .keyUp _ => IsHighByte (encodeWith o.withSpecValues i) 0x05
    | .rxByte _ => IsHighByte (encodeWith o.withSpecValues i) 0x06
    | .rxEnd => IsWord (encodeWith o.withSpecValues i) 0x0700#16
    | .getInfo _ => IsCode (encodeWith o.withSpecValues i) 0x01#8
    | .getInfoResp _ => IsCode (encodeWith o.withSpecValues i) 0x81#8
    | .sendKeyboardGeneral _ => IsCode (encodeWith o.withSpecValues i) 0x02#8
    | .sendKeyboardGeneralResp _ => IsCode (encodeWith o.withSpecValues i) 0x82#8
    | .sendKeyboardMedia _ => IsCode (encodeWith o.withSpecValues i) 0x03#8
    | .sendKeyboardMediaResp _ => IsCode (encodeWith o.withSpecValues i) 0x83#8
    | .sendMouseAbs _ => IsCode (encodeWith o.withSpecValues i) 0x04#8
    | .sendMouseAbsResp _ => IsCode (encodeWith o.withSpecValues i) 0x84#8
    | .sendMouseRel _ => IsCode (encodeWith o.withSpecValues i) 0x05#8
    | .sendMouseRelResp _ => IsCode (encodeWith o.withSpecValues i) 0x85#8
    | .reset _ => IsCode (encodeWith o.withSpecValues i) o.withSpecValues.cmdReset
    | .resetResp _ => IsCode (encodeWith o.withSpecValues i) (o.withSpecValues.cmdReset ||| 0x80#8)

/-- An operation word as a number. -/
theorem opWord_toNat (op : BitVec 3) (a : Byte) : (opWord op a).toNat = op.toNat * 256 + a.toNat := by
  have h : (opWord op a).toNat = ((0#5).toNat <<< 3 ||| op.toNat) <<< 8 ||| a.toNat := by
    simp only [opWord, ← BitVec.toNat_append]
  have ha := a.isLt
  rw [h, Nat.shiftLeft_eq, Nat.mul_comm, ← Nat.two_pow_add_eq_or_of_lt ha]
  simp; omega

/-- The high byte of an operation word is its selector. -/
theorem opWord_high (op : BitVec 3) (a : Byte) : (opWord op a).toNat / 256 = op.toNat := by
  have := a.isLt
  rw [opWord_toNat]; omega

/-- A response row's code is its request code with bit 7 set. -/
theorem isCode_response (q : Byte) {c : Byte} (p : List Byte) (h : q ||| 0x80#8 = c) :
    IsCode (.command (q ||| 0x80#8) p) c := ⟨p, by rw [h]⟩

theorem encode (c : Byte) (p : List Byte) : Statement (.encode c p) := fun _ => ⟨_, _, rfl, opWord_high 0 c⟩
theorem decode (b : List Byte) : Statement (.decode b) := fun _ => ⟨_, _, rfl, rfl⟩
theorem classify (f : Frame) : Statement (.classify f) := fun _ => ⟨_, _, rfl, rfl⟩
theorem matchResponse (q : Byte) (f : Frame) : Statement (.matchResponse q f) := fun _ => ⟨_, _, rfl, opWord_high 3 q⟩
theorem keyDown (c : Byte) : Statement (.keyDown c) := fun _ => ⟨_, _, rfl, opWord_high 4 c⟩
theorem keyUp (c : Byte) : Statement (.keyUp c) := fun _ => ⟨_, _, rfl, opWord_high 5 c⟩
theorem rxByte (b : Byte) : Statement (.rxByte b) := fun _ => ⟨_, _, rfl, opWord_high 6 b⟩
theorem rxEnd : Statement .rxEnd := fun _ => ⟨_, _, rfl, rfl⟩
theorem getInfo (p : List Byte) : Statement (.getInfo p) := fun _ => ⟨_, rfl⟩
theorem getInfoResp (p : List Byte) : Statement (.getInfoResp p) := fun _ => isCode_response 0x01#8 p rfl
theorem sendKeyboardGeneral (p : List Byte) : Statement (.sendKeyboardGeneral p) := fun _ => ⟨_, rfl⟩
theorem sendKeyboardGeneralResp (p : List Byte) : Statement (.sendKeyboardGeneralResp p) := fun _ => isCode_response 0x02#8 p rfl
theorem sendKeyboardMedia (p : List Byte) : Statement (.sendKeyboardMedia p) := fun _ => ⟨_, rfl⟩
theorem sendKeyboardMediaResp (p : List Byte) : Statement (.sendKeyboardMediaResp p) := fun _ => isCode_response 0x03#8 p rfl
theorem sendMouseAbs (p : List Byte) : Statement (.sendMouseAbs p) := fun _ => ⟨_, rfl⟩
theorem sendMouseAbsResp (p : List Byte) : Statement (.sendMouseAbsResp p) := fun _ => isCode_response 0x04#8 p rfl
theorem sendMouseRel (p : List Byte) : Statement (.sendMouseRel p) := fun _ => ⟨_, rfl⟩
theorem sendMouseRelResp (p : List Byte) : Statement (.sendMouseRelResp p) := fun _ => isCode_response 0x05#8 p rfl
theorem reset (p : List Byte) : Statement (.reset p) := fun _ => ⟨_, rfl⟩
theorem resetResp (p : List Byte) : Statement (.resetResp p) := fun _ => ⟨p, rfl⟩

end Sys2Proof.Laws.EncodesAsRow
end

