-- ==== Sys2Proof/Laws/Receiver.lean ====
section
/-!
SUPPORT. Everything one step of the receiver can do (R98, R99), said once.
-/

namespace Sys2Proof.Machine

/-- An index below `MAX_PAYLOAD` is one of RX_BUF (R20). -/
theorem rxBuf_bound {P : Config.Params} {n : Nat} (h : n < P.maxPayload.val) : n < Config.maxPayload :=
  Nat.lt_of_lt_of_le h (Nat.le_of_lt_succ P.maxPayload.isLt)

/-- A payload byte below the buffer's end is stored (R98). -/
theorem rxPayload_next {P : Config.Params} {b : Byte} {s : State} (h : s.rxIdx.toNat < P.maxPayload.val) :
    rxPayload P b s = .next (returnOk .nothing
      { s with
        rxSum := s.rxSum + b
        rxBuf := s.rxBuf.set s.rxIdx.toNat b (rxBuf_bound h)
        rxIdx := s.rxIdx + 1#8
        rxPhase := if s.rxIdx + 1#8 = s.rxLen then .csum else .pay }) := by
  simp [rxPayload, h]

/-- Past the buffer's end the machine stops (log 6). -/
theorem rxPayload_fault {P : Config.Params} {b : Byte} {s : State} (h : ¬ s.rxIdx.toNat < P.maxPayload.val) :
    rxPayload P b s = .fault .rxBufIndex := by
  simp [rxPayload, h]

/-- What the checksum byte decides at the block's parameters (R98). -/
theorem rxVerdict_params (b : Byte) (s : State) :
    rxVerdict Config.params b s =
      if s.rxSyncOk = false ∨ s.rxAddr ≠ 0x00#8 then .error (.headerError none (6 + s.rxLen.toNat))
      else if b ≠ s.rxSum then .error (.checksumError b s.rxSum (6 + s.rxLen.toNat))
      else .ok (.received (rxFrame s)) := rfl

/-- If the receiver takes a byte and goes on, one of these happened: a header byte, a payload byte, or the checksum byte (R98). -/
theorem rxStep_cases {P : Config.Params} {b : Byte} {s t : State} (h : rxStep P b s = .next t) :
    (s.rxPhase = .h0 ∧
      t = returnOk .nothing { s with rxSum := b, rxSyncOk := decide (b = P.syncHi), rxPhase := .h1 }) ∨
    (s.rxPhase = .h1 ∧
      t = returnOk .nothing
        { s with rxSum := s.rxSum + b, rxSyncOk := s.rxSyncOk && decide (b = P.syncLo), rxPhase := .h2 }) ∨
    (s.rxPhase = .h2 ∧ t = returnOk .nothing { s with rxSum := s.rxSum + b, rxAddr := b, rxPhase := .h3 }) ∨
    (s.rxPhase = .h3 ∧ t = returnOk .nothing { s with rxSum := s.rxSum + b, rxCmd := b, rxPhase := .h4 }) ∨
    (s.rxPhase = .h4 ∧
      t = returnOk .nothing
        { s with
          rxSum := s.rxSum + b
          rxLen := b
          rxIdx := 0x00#8
          rxPhase := if b = 0x00#8 then .csum else .pay }) ∨
    (s.rxPhase = .pay ∧ ∃ hb : s.rxIdx.toNat < P.maxPayload.val,
      t = returnOk .nothing
        { s with
          rxSum := s.rxSum + b
          rxBuf := s.rxBuf.set s.rxIdx.toNat b (rxBuf_bound hb)
          rxIdx := s.rxIdx + 1#8
          rxPhase := if s.rxIdx + 1#8 = s.rxLen then .csum else .pay }) ∨
    (s.rxPhase = .csum ∧ t = finish (rxVerdict P b s) (rxIdle s)) := by
  unfold rxStep at h
  cases hp : s.rxPhase <;> simp only [hp, Host.Outcome.next.injEq] at h
  case pay =>
    by_cases hb : s.rxIdx.toNat < P.maxPayload.val
    · rw [rxPayload_next hb, Host.Outcome.next.injEq] at h
      exact .inr (.inr (.inr (.inr (.inr (.inl ⟨rfl, hb, h.symm⟩)))))
    · rw [rxPayload_fault hb] at h; cases h
  all_goals simp [← h]

/-- The receiver never refuses, and stops only past the buffer's end in phase PAY (log 6). -/
theorem rxStep_next_or_fault (P : Config.Params) (b : Byte) (s : State) :
    (∃ t, rxStep P b s = .next t) ∨
      (s.rxPhase = .pay ∧ ¬ s.rxIdx.toNat < P.maxPayload.val ∧ rxStep P b s = .fault .rxBufIndex) := by
  unfold rxStep
  cases hp : s.rxPhase
  case pay =>
    by_cases hb : s.rxIdx.toNat < P.maxPayload.val
    · exact .inl ⟨_, rxPayload_next hb⟩
    · exact .inr ⟨rfl, hb, rxPayload_fault hb⟩
  all_goals exact .inl ⟨_, rfl⟩

/-- RX_END at H0 (R99). -/
theorem execRxEnd_idle {s : State} (h : s.rxPhase = .h0) : execRxEnd s = .next (returnOk .nothing s) := by
  simp [execRxEnd, h]

/-- RX_END in the middle of a frame (R99). -/
theorem execRxEnd_cut {s : State} (h : s.rxPhase ≠ .h0) :
    execRxEnd s = .next (raise (.truncated (rxCount s)) (rxIdle s)) := by
  simp [execRxEnd, h]

end Sys2Proof.Machine
end

