-- ==== Sys2Proof/Laws/Step.lean ====
section
/-!
SUPPORT. Everything exec and one step can do, said once.
-/

namespace Sys2Proof.Machine

/-- If exec goes on, the instruction ended in one of five ways: a result or error with no register written, a frame sent, a key
press, a key release, a receiver step, or the end of a received frame. -/
theorem exec_cases {i : Instr} {s t : State} (h : exec i s = .next t) :
    (∃ o, t = finish o s) ∨ (∃ c p, t = sendFrame Config.params c p s) ∨
    (∃ c, i = .keyDown c ∧ t = keyDownState Config.params c s) ∨ (∃ c, i = .keyUp c ∧ t = keyUpState Config.params c s) ∨
    (∃ b, i = .rxByte b ∧ rxStep Config.params b s = .next t) ∨ (i = .rxEnd ∧ execRxEnd s = .next t) := by
  cases i
  case rxByte b => exact .inr (.inr (.inr (.inr (.inl ⟨b, rfl, h⟩))))
  case rxEnd => exact .inr (.inr (.inr (.inr (.inr ⟨rfl, h⟩))))
  case keyDown c => exact .inr (.inr (.inl ⟨c, rfl, by simpa [exec, execKeyDown] using h.symm⟩))
  case keyUp c => exact .inr (.inr (.inr (.inl ⟨c, rfl, by simpa [exec, execKeyUp] using h.symm⟩)))
  case classify f => exact .inl ⟨.ok (.code (classifyCode Config.params f)), by simpa [exec, execClassify] using h.symm⟩
  case decode b => exact .inl ⟨_, (Host.Outcome.next.inj h).symm⟩
  case matchResponse q f => exact .inl ⟨_, (Host.Outcome.next.inj h).symm⟩
  case encode c p => exact .inr (.inl ⟨_, _, (Host.Outcome.next.inj h).symm⟩)
  case getInfo p => exact .inr (.inl ⟨_, _, (Host.Outcome.next.inj h).symm⟩)
  case sendKeyboardGeneral p => exact .inr (.inl ⟨_, _, (Host.Outcome.next.inj h).symm⟩)
  case sendKeyboardMedia p => exact .inr (.inl ⟨_, _, (Host.Outcome.next.inj h).symm⟩)
  case sendMouseAbs p => exact .inr (.inl ⟨_, _, (Host.Outcome.next.inj h).symm⟩)
  case sendMouseRel p => exact .inr (.inl ⟨_, _, (Host.Outcome.next.inj h).symm⟩)
  case reset p => exact .inr (.inl ⟨_, _, (Host.Outcome.next.inj h).symm⟩)
  all_goals exact .inl ⟨_, (Host.Outcome.next.inj h).symm⟩

/-- Every instruction goes on, but RX_BYTE past the end of its buffer (log 6). -/
theorem exec_next_or_rxFault (i : Instr) (s : State) :
    (∃ t, exec i s = .next t) ∨
      (∃ b, i = .rxByte b ∧ s.rxPhase = .pay ∧ ¬ s.rxIdx.toNat < 255 ∧ exec i s = .fault .rxBufIndex) := by
  cases i
  case rxByte b =>
    rcases rxStep_next_or_fault Config.params b s with h | ⟨hp, hb, h⟩
    · exact .inl h
    · exact .inr ⟨b, rfl, hp, hb, h⟩
  case rxEnd =>
    left
    by_cases h : s.rxPhase = .h0
    · exact ⟨_, execRxEnd_idle h⟩
    · exact ⟨_, execRxEnd_cut h⟩
  all_goals exact .inl ⟨_, rfl⟩

/-- If the machine goes on, the step was one of these: nothing presented, a reset, a decoded instruction, or a reserved word. -/
theorem step_cases {s t : State} (h : step s = .next t) :
    (s.host = [] ∧ t = s) ∨
    (∃ later, s.host = .reset :: later ∧ t = resetRegisters { s with host := later }) ∨
    (∃ r later i, s.host = .request r :: later ∧ decode r = .ok i ∧ exec i { s with host := later } = .next t) ∨
    (∃ r later w, s.host = .request r :: later ∧ decode r = .error (.reservedOp w) ∧
      t = raise (.reservedOp w) { s with host := later }) := by
  unfold step transaction at h
  cases hh : s.host with
  | nil => simp [hh] at h; exact .inl ⟨rfl, h.symm⟩
  | cons e later =>
    cases e with
    | reset => simp [hh] at h; exact .inr (.inl ⟨later, rfl, h.symm⟩)
    | otherAgent r => simp [hh] at h
    | request r =>
      cases hd : decode r with
      | ok i => simp [hh, hd] at h; exact .inr (.inr (.inl ⟨r, later, i, rfl, hd, h⟩))
      | error e =>
        cases e with
        | reservedOp w => simp [hh, hd] at h; exact .inr (.inr (.inr ⟨r, later, w, rfl, hd, h.symm⟩))

end Sys2Proof.Machine
end

