-- ==== Sys2Proof/Tests/Slice0.lean ====
section
/-!
SUPPORT. The model's own tests. Expected results are the vectors of 95_test_vectors.md (V-…), with its default sync bytes; the witnesses
at the end show that the hypotheses of the statements can be met.
-/

namespace Sys2Proof.Tests

open Sys2Proof.Machine Sys2Proof.Safety Sys2Proof.Form

/-- The spec's example parameters: sync 57 AB, MOD_BASE E0, set_clear; CMD_RESET 0F as in V-E12. -/
def P0 : Config.Params := Config.Params.specDefault .setClear 9

/-- The same under the xor reading. -/
def P1 : Config.Params := Config.Params.specDefault .xor 9

/-- A frame with address 0x00. -/
def fr (cmd : Byte) (payload : List Byte) : Frame := ⟨0x00#8, cmd, payload⟩

/-- The reset state with the given slots. -/
def slots (a b c d e f : Byte) : State := { State.reset with kbSlot := #v[a, b, c, d, e, f] }

/-- What DECODE answers with the example parameters. -/
def decoded (b : List Byte) : Option Response := (finish (parseFrame P0 b) State.reset).response

/-- What MATCH_RESPONSE answers. -/
def matched (q : Byte) (f : Frame) : Option Response := (finish (checkResponse P0 q f) State.reset).response

/-- The state the receiver is in after a byte, with the example parameters. -/
def rx (b : Byte) (s : State) : State :=
  match rxStep P0 b s with
  | .next t => t
  | _ => State.reset

/-- The answer `(OK, r)` with nothing emitted. -/
def okWith (r : Result) : Option Response := some ⟨.ok, r, []⟩

/-- The answer of an error. -/
def err (e : Error) : Option Response := some ⟨.error e, .nothing, []⟩

/-- A payload one byte too long, kept folded in the proofs below by its length lemma. -/
def tooLong : List Byte := List.replicate 256 0x00#8

/-- The longest payload. -/
def longest : List Byte := List.replicate 255 0x00#8

theorem tooLong_length : tooLong.length = 256 := List.length_replicate

theorem longest_length : longest.length = 255 := List.length_replicate

/-! ## WellFormed: an ill-formed term for each check -/

theorem test_wf_classify_refuses_long_frame : (Instr.classify (fr 0x82 tooLong)).wf = false := by simp [Instr.wf, Frame.wf, fr, tooLong_length]
theorem test_wf_match_refuses_long_frame : (Instr.matchResponse 2 (fr 0x82 tooLong)).wf = false := by simp [Instr.wf, Frame.wf, fr, tooLong_length]
theorem test_wf_getInfo_refuses_payload : (Instr.getInfo [0x00]).wf = false := by decide
theorem test_wf_report_refuses_short : (Instr.sendKeyboardGeneral [0, 0, 4, 0, 0, 0, 0]).wf = false := by decide
theorem test_wf_report_refuses_reserved : (Instr.sendKeyboardGeneral [0, 1, 4, 0, 0, 0, 0, 0]).wf = false := by decide
theorem test_wf_media_refuses_long : (Instr.sendKeyboardMedia tooLong).wf = false := by simp [Instr.wf, tooLong_length]
theorem test_wf_mouseAbs_refuses_long : (Instr.sendMouseAbs tooLong).wf = false := by simp [Instr.wf, tooLong_length]
theorem test_wf_mouseRel_refuses_long : (Instr.sendMouseRel tooLong).wf = false := by simp [Instr.wf, tooLong_length]
theorem test_wf_reset_refuses_payload : (Instr.reset [0x00]).wf = false := by decide
theorem test_wf_getInfoResp_refuses_long : (Instr.getInfoResp tooLong).wf = false := by simp [Instr.wf, tooLong_length]
theorem test_wf_keyboardResp_refuses_long : (Instr.sendKeyboardGeneralResp tooLong).wf = false := by simp [Instr.wf, tooLong_length]
theorem test_wf_mediaResp_refuses_long : (Instr.sendKeyboardMediaResp tooLong).wf = false := by simp [Instr.wf, tooLong_length]
theorem test_wf_mouseAbsResp_refuses_long : (Instr.sendMouseAbsResp tooLong).wf = false := by simp [Instr.wf, tooLong_length]
theorem test_wf_mouseRelResp_refuses_long : (Instr.sendMouseRelResp tooLong).wf = false := by simp [Instr.wf, tooLong_length]
theorem test_wf_resetResp_refuses_long : (Instr.resetResp tooLong).wf = false := by simp [Instr.wf, tooLong_length]
theorem test_wf_report_accepts : (Instr.sendKeyboardGeneral [0, 0, 4, 0, 0, 0, 0, 0]).wf = true := by decide

/-! ## Decoding: words written out from R69, R70, R63, R64 (V-W1 to V-W8, R75) -/

theorem test_word_encode : decodeTableWord 16 0b0000000011111111 = some (.encode 0xFF []) := by decide
theorem test_word_decode : decodeTableWord 16 0b0000000100000000 = some (.decode []) := by decide
theorem test_word_decode_arg : decodeTableWord 16 0x0101 = none := by decide
theorem test_word_classify : decodeTableWord 16 0b0000001000000000 = some (.classify (fr 0 [])) := by decide
theorem test_word_classify_arg : decodeTableWord 16 0x0280 = none := by decide
theorem test_word_match : decodeTableWord 16 0b0000001110000010 = some (.matchResponse 0x82 (fr 0 [])) := by decide
theorem test_word_keyDown : decodeTableWord 16 0b0000010000000100 = some (.keyDown 0x04) := by decide
theorem test_word_keyUp : decodeTableWord 16 0b0000010111100001 = some (.keyUp 0xE1) := by decide
theorem test_word_rxByte : decodeTableWord 16 0b0000011001010111 = some (.rxByte 0x57) := by decide
theorem test_word_rxEnd : decodeTableWord 16 0b0000011100000000 = some .rxEnd := by decide
theorem test_word_rxEnd_arg : decodeTableWord 16 0x0701 = none := by decide
theorem test_word_rsv : decodeTableWord 16 0x0800 = none := by decide
theorem test_code_getInfo : decodeTableWord 8 0b00000001 = some (.getInfo []) := by decide
theorem test_code_getInfoResp : decodeTableWord 8 0b10000001 = some (.getInfoResp []) := by decide
theorem test_code_keyboard : decodeTableWord 8 0b00000010 = some (.sendKeyboardGeneral [0, 0, 0, 0, 0, 0, 0, 0]) := by decide
theorem test_code_keyboardResp : decodeTableWord 8 0b10000010 = some (.sendKeyboardGeneralResp []) := by decide
theorem test_code_media : decodeTableWord 8 0b00000011 = some (.sendKeyboardMedia []) := by decide
theorem test_code_mediaResp : decodeTableWord 8 0b10000011 = some (.sendKeyboardMediaResp []) := by decide
theorem test_code_mouseAbs : decodeTableWord 8 0b00000100 = some (.sendMouseAbs []) := by decide
theorem test_code_mouseAbsResp : decodeTableWord 8 0b10000100 = some (.sendMouseAbsResp []) := by decide
theorem test_code_mouseRel : decodeTableWord 8 0b00000101 = some (.sendMouseRel []) := by decide
theorem test_code_mouseRelResp : decodeTableWord 8 0b10000101 = some (.sendMouseRelResp []) := by decide
/-- R63 with `CMD_RESET = 0x0F`, one value it may have. -/
theorem test_code_reset : decodeCommand P0 0x0F [] = .reset [] := by decide
theorem test_code_resetResp : decodeCommand P0 0x8F [] = .resetResp [] := by decide
/-- R65, V-M9: an unlisted code is still encoded, and its response still read. -/
theorem test_code_unlisted : decodeCommand P0 0x06 [1] = .encode 0x06 [1] := by decide
theorem test_code_unlistedResp : decodeCommand P0 0x80 [0] = .matchResponse 0x00 (fr 0x80 [0]) := by decide

/-! ## ENCODE and the requests -/

/-- V-E1. -/
theorem test_encode_empty : (sendFrame P0 0x01 [] State.reset).tx = [0x57, 0xAB, 0x00, 0x01, 0x00, 0x03] := by decide
/-- V-E4: the sum wraps. -/
theorem test_encode_wraps : (sendFrame P0 0xFF [] State.reset).tx = [0x57, 0xAB, 0x00, 0xFF, 0x00, 0x01] := by decide
/-- V-E7: 256 bytes raise PayloadTooLong(256). -/
theorem test_encode_tooLong :
    (sendFrame P0 0x02 tooLong State.reset).response = err (.payloadTooLong 256) := by
  simp [sendFrame, raise, err, tooLong_length]
/-- V-E10. -/
theorem test_encode_long_response :
    wire P0 (fr 0x81 [0x30, 1, 2, 0, 0, 0, 0, 0]) = [0x57, 0xAB, 0, 0x81, 8, 0x30, 1, 2, 0, 0, 0, 0, 0, 0xBE] := by decide

/-! ## DECODE -/

/-- V-D2. -/
theorem test_decode_rest :
    decoded [0x57, 0xAB, 0, 0x82, 1, 0, 0x85, 0x57, 0xAB] = okWith (.decoded (fr 0x82 [0]) [0x57, 0xAB]) := by decide
/-- V-D4. -/
theorem test_decode_checksum : decoded [0x57, 0xAB, 0, 0x82, 1, 0, 0x86] = err (.checksumError 0x86 0x85 7) := by decide
/-- V-D9: the header error wins. -/
theorem test_decode_header :
    decoded [0x57, 0xAA, 0, 0x82, 1, 0, 0x85] = err (.headerError (some [0x57, 0xAA, 0, 0x82, 1]) 7) := by decide
/-- V-D10: address 1. -/
theorem test_decode_address :
    decoded [0x57, 0xAB, 1, 0x82, 1, 0, 0x86] = err (.headerError (some [0x57, 0xAB, 1, 0x82, 1]) 7) := by decide
/-- V-D14. -/
theorem test_decode_truncated : decoded [0x57, 0xAB, 0, 1, 0] = err (.truncated 5) := by decide
/-- V-D15: a flipped length bit. -/
theorem test_decode_length_flip : decoded [0x57, 0xAB, 0, 0x82, 0, 0, 0x85] = err (.checksumError 0x00 0x84 6) := by decide

/-! ## CLASSIFY -/

/-- V-C4, V-C6. -/
theorem test_classify_failed : classifyCode P0 (fr 0x82 []) = 0xE6 ∧ classifyCode P0 (fr 0x02 [0]) = 0xE6 := by decide
/-- V-C5, V-C8. -/
theorem test_classify_success_and_code : classifyCode P0 (fr 0x81 [1, 2]) = 0x00 ∧ classifyCode P0 (fr 0xC2 [0xE1]) = 0xE1 := by decide

/-! ## MATCH_RESPONSE and the responses -/

/-- V-M4: the error code is tested first. -/
theorem test_match_code_first : matched 0x02 (fr 0x81 [0xE1]) = err (.protocolError .errorCode 0xE1) := by decide
/-- V-M3, V-M6. -/
theorem test_match_mismatch_and_response_request :
    matched 0x02 (fr 0x81 [0]) = err (.protocolError .commandMismatch 0x81) ∧
      matched 0x82 (fr 0x82 [0xE6]) = okWith .nothing := by decide
/-- V-M7, V-M8 through the GetInfo response. -/
theorem test_getInfoResp :
    (readResponse P0 0x01 [0, 0, 0, 0, 0, 0, 0, 0] State.reset).response = okWith .nothing ∧
      (readResponse P0 0x01 [] State.reset).response = err (.protocolError .errorCode 0xE6) := by decide
/-- V-M1, V-M2 through the keyboard response. -/
theorem test_keyboardResp :
    (readResponse P0 0x02 [0] State.reset).response = okWith .nothing ∧
      (readResponse P0 0x02 [0xE6] State.reset).response = err (.protocolError .errorCode 0xE6) := by decide

/-! ## KEY_DOWN and KEY_UP -/

/-- V-K1. -/
theorem test_keyDown_emits :
    (keyDownState P0 0x04 State.reset).tx = [0x57, 0xAB, 0, 2, 8, 0, 0, 4, 0, 0, 0, 0, 0, 0x10] := by decide
/-- V-K14: a duplicate. -/
theorem test_keyDown_duplicate : (keyDownState P0 0x05 (slots 0 5 0 0 0 0)).kbSlot.toList = [5, 5, 0, 0, 0, 0] := by decide
/-- V-K11: the seventh key is dropped, the frame is sent. -/
theorem test_keyDown_seventh :
    (keyDownState P0 0x0A (slots 4 5 6 7 8 9)).tx = [0x57, 0xAB, 0, 2, 8, 0, 0, 4, 5, 6, 7, 8, 9, 0x33] := by decide
/-- V-K19: a modifier beside full slots. -/
theorem test_keyDown_modifier :
    (keyDownState P0 0xE7 (slots 0xFF 0xFE 0xFD 0xFC 0xFB 0xFA)).tx =
      [0x57, 0xAB, 0, 2, 8, 0x80, 0, 0xFF, 0xFE, 0xFD, 0xFC, 0xFB, 0xFA, 0x77] := by decide
/-- V-K6. -/
theorem test_keyDown_xor : (keyDownState P1 0xE0 { State.reset with kbMod := 0x01 }).kbMod = 0x00 := by decide
/-- V-K15: both slots are cleared. -/
theorem test_keyUp_both : (keyUpState P0 0x05 (slots 5 5 0 0 0 0)).kbSlot.toList = [0, 0, 0, 0, 0, 0] := by decide
/-- V-K10. -/
theorem test_keyUp_modifier :
    (keyUpState P0 0xE3 { State.reset with kbMod := 0xFF }).tx =
      [0x57, 0xAB, 0, 2, 8, 0xF7, 0, 0, 0, 0, 0, 0, 0, 0x03] := by decide
/-- V-K8. -/
theorem test_keyUp_xor : (keyUpState P1 0xE0 State.reset).kbMod = 0x01 := by decide

/-! ## RX_BYTE and RX_END -/

/-- A receiver that has taken the header `57 AB 00 82 len`, whose sum is 0x84 + len. -/
def afterHeader (phase : RxPhase) (sum len : Byte) : State :=
  { State.reset with rxPhase := phase, rxSum := sum, rxCmd := 0x82, rxLen := len }

/-- R98, phase H0: a wrong sync byte is noted and the frame goes on. -/
theorem test_rx_sync : (rx 0x56 State.reset).rxSyncOk = false ∧ (rx 0x56 State.reset).rxPhase = .h1 := by decide
/-- V-R1, the last payload byte of `57 AB 00 82 01 00`. -/
theorem test_rx_payload :
    (rx 0x00 (afterHeader .pay 0x85 1)).rxPhase = .csum ∧ (rx 0x00 (afterHeader .pay 0x85 1)).rxIdx = 1 := by decide
/-- V-R1, the checksum byte. -/
theorem test_rx_frame : (rx 0x85 (afterHeader .csum 0x85 1)).response = okWith (.received (fr 0x82 [0])) := by decide
/-- V-R4: HeaderError although the sum is right. -/
theorem test_rx_header :
    (rx 0x83 { afterHeader .csum 0x83 0 with rxSyncOk := false }).response = err (.headerError none 6) := by decide
/-- V-R5. -/
theorem test_rxEnd_cut :
    (match execRxEnd { State.reset with rxPhase := .h2 } with
      | .next t => decide (t.response = err (.truncated 2) ∧ t.rxPhase = .h0)
      | _ => false) = true := by decide
/-- V-R7. -/
theorem test_rxEnd_idle :
    (match execRxEnd State.reset with
      | .next t => decide (t.response = okWith .nothing)
      | _ => false) = true := by decide

/-! ## One step -/

/-- V-W5 as a step: a reserved word answers ReservedOp. -/
theorem test_step_reserved :
    (match step { State.reset with host := [.request (.op 0x0800 noOperand)] } with
      | .next t => decide (t.response = err (.reservedOp 0x0800) ∧ t.tx = [])
      | _ => false) = true := by decide
/-- R173: a reset in the middle of a frame. -/
theorem test_step_reset :
    (match step { afterHeader .pay 0x85 1 with host := [.reset] } with
      | .next t => decide (t.rxPhase = .h0 ∧ t.response = none)
      | _ => false) = true := by decide
/-- The first step from reset runs the presented row. -/
theorem test_step_runs_row :
    (match step (State.reset.withFetchWord 16 0x0700) with
      | .next t => decide (t.response = okWith .nothing)
      | _ => false) = true := by decide

/-! ## The host's rule (R177, U13) -/

/-- A key press, whose frame is a request. -/
def pressed : Exchange := ⟨.keyDown 0x04, (keyDownState P0 0x04 State.reset).response.getD ⟨.ok, .nothing, []⟩⟩

/-- Its response, received. -/
def acknowledged : Exchange := ⟨.decode [], ⟨.ok, .decoded (fr 0x82 [0]) [], []⟩⟩

/-- A frame checked against a request code. -/
def checked (q : Byte) (f : Frame) : Exchange := ⟨.matchResponse q f, ⟨.ok, .nothing, []⟩⟩

theorem test_host_checks_the_response :
    oneInFlight [pressed, acknowledged, checked 0x02 (fr 0x82 [0]), pressed] = true ∧
      oneInFlight [pressed, ⟨.rxEnd, ⟨.error (.truncated 2), .nothing, []⟩⟩, pressed] = true := by decide
/-- No response, another request's code, another frame, a frame never received. -/
theorem test_host_breaks_the_rule :
    oneInFlight [pressed, pressed] = false ∧
      oneInFlight [pressed, acknowledged, checked 0x01 (fr 0x82 [0]), pressed] = false ∧
      oneInFlight [pressed, acknowledged, checked 0x02 (fr 0x82 [1, 2]), pressed] = false ∧
      oneInFlight [pressed, checked 0x02 (fr 0x82 [0]), pressed] = false := by decide
/-- Only the check of the awaited response ends a round trip, not one made with no request outstanding. -/
theorem test_idle_check_ends_nothing :
    roundTripsEnded .idle [checked 0x02 (fr 0x82 [0]), pressed, acknowledged, checked 0x02 (fr 0x82 [0]),
      checked 0x02 (fr 0x82 [0])] = 1 := by decide
/-- ENCODE of a response code sends no request. -/
theorem test_response_frame_is_no_request : oneInFlight [pressed, ⟨.encode 0x82 [], ⟨.ok, .nothing, wire P0 (fr 0x82 [])⟩⟩] = true := by
  decide

/-! ## Witnesses: the statements' hypotheses can be met -/

theorem witness_StepRunsDecodedInstruction :
    (State.reset.withFetchWord 16 0x0404).host = .request (.op 0x0404 noOperand) :: [] ∧
      decode (.op 0x0404 noOperand) = .ok (.keyDown 0x04) := ⟨rfl, rfl⟩

theorem witness_ReservedWord :
    (0x0800#16).toNat / 2048 ≠ 0 ∧ ((0x0101#16).toNat / 256 = 1 ∧ (0x0101#16).toNat % 256 ≠ 0) ∧
      ((0x02FF#16).toNat / 256 = 2 ∧ (0x02FF#16).toNat % 256 ≠ 0) ∧
      ((0x0701#16).toNat / 256 = 7 ∧ (0x0701#16).toNat % 256 ≠ 0) := by decide

theorem witness_DecodeInvertsEncode :
    (Instr.getInfo []).wf = true ∧ (Instr.classify (fr 0x82 longest)).wf = true := by
  simp [Instr.wf, Frame.wf, fr, longest_length]

theorem witness_payloadLengths : longest.length ≤ 255 ∧ 255 < tooLong.length := by
  simp [longest_length, tooLong_length]

theorem witness_BuildsFrame (p : List Byte) :
    BuildsFrame (.encode 0xFF p) 0xFF p ∧ BuildsFrame (.getInfo p) 0x01 p ∧ BuildsFrame (.sendKeyboardGeneral p) 0x02 p ∧
      BuildsFrame (.sendKeyboardMedia p) 0x03 p ∧ BuildsFrame (.sendMouseAbs p) 0x04 p ∧
      BuildsFrame (.sendMouseRel p) 0x05 p ∧ BuildsFrame (.reset p) Config.params.cmdReset p := by
  simp [BuildsFrame]

theorem witness_ReadsResponse (p : List Byte) :
    ReadsResponse (.getInfoResp p) 0x01 p ∧ ReadsResponse (.sendKeyboardGeneralResp p) 0x02 p ∧
      ReadsResponse (.sendKeyboardMediaResp p) 0x03 p ∧ ReadsResponse (.sendMouseAbsResp p) 0x04 p ∧
      ReadsResponse (.sendMouseRelResp p) 0x05 p ∧ ReadsResponse (.resetResp p) Config.params.cmdReset p := by
  simp [ReadsResponse]

theorem witness_ReadsOnly (b p : List Byte) (f : Frame) (q : Byte) :
    ReadsOnly (.decode b) ∧ ReadsOnly (.classify f) ∧ ReadsOnly (.matchResponse q f) ∧ ReadsOnly (.getInfoResp p) ∧
      ReadsOnly (.sendKeyboardGeneralResp p) ∧ ReadsOnly (.sendKeyboardMediaResp p) ∧ ReadsOnly (.sendMouseAbsResp p) ∧
      ReadsOnly (.sendMouseRelResp p) ∧ ReadsOnly (.resetResp p) := by
  simp [ReadsOnly]

/-- Truncated: no byte, four bytes, five bytes with L = 0, and one byte short of L = 255; whole: L = 0. -/
theorem witness_DecodeParsesOneFrame :
    ([] : List Byte).length < 5 ∧
      (([0, 0, 0, 0, 0] : List Byte)[4]? = some 0x00#8 ∧ ([0, 0, 0, 0, 0] : List Byte).length < 6 + (0x00#8).toNat) ∧
      (([0, 0, 0, 0, 0xFF] ++ longest)[4]? = some 0xFF#8 ∧ ([0, 0, 0, 0, 0xFF] ++ longest).length < 6 + (0xFF#8).toNat) ∧
      ([] : List Byte).length = (0x00#8).toNat ∧ longest.length = (0xFF#8).toNat := by
  simp [longest_length]

theorem witness_ChecksumMismatch : lowByteSum (unsummed 0x82 [0]) + 1#8 ≠ lowByteSum (unsummed 0x82 [0]) := by
  simp

/-- A sync byte, the command byte, a payload byte and the checksum byte. -/
theorem witness_SingleBitFlip :
    (frameBytes 0x82 [0])[0]? = some Config.params.syncHi ∧ (frameBytes 0x82 [0])[3]? = some 0x82#8 ∧
      (frameBytes 0x82 [0])[5]? = some 0x00#8 ∧ (frameBytes 0x82 [0])[6]? = some (lowByteSum (unsummed 0x82 [0])) :=
  ⟨rfl, rfl, rfl, rfl⟩

theorem witness_ReorderedPayload : ([1, 2] : List Byte).Perm [2, 1] ∧ ([1, 2] : List Byte).length ≤ 255 := by decide

theorem witness_FrameOperand : (fr 0x82 []).payload.length ≤ 255 ∧ (fr 0x82 longest).payload.length ≤ 255 := by
  simp [fr, longest_length]

/-- 0x00 and two non-zero codes are keys, whatever MOD_BASE is. -/
theorem witness_keys : IsKey 0x00 ∧ ∃ a b, IsKey a ∧ IsKey b ∧ a ≠ 0x00#8 ∧ b ≠ 0x00#8 ∧ a ≠ b := by
  have h := modBase_toNat Config.params
  constructor
  · left; simp [h]
  · by_cases hb : 2 < Config.params.modBase.toNat
    · exact ⟨0x01, 0x02, .inl (by simp; omega), .inl (by simp; omega), by decide, by decide, by decide⟩
    · exact ⟨0x64, 0x65, .inr (by simp; omega), .inr (by simp; omega), by decide, by decide, by decide⟩

/-- Some code is no key: the first modifier code. -/
theorem witness_notKey : ¬ IsKey (modifierCode 0) := by
  simp [IsKey, modifierCode]

/-- In the reset state slot 0 is the first empty one, and slot 1 is not. -/
theorem witness_FirstEmptyOrMatching :
    FirstEmptyOrMatching 0x04 State.reset 0 ∧ ¬ FirstEmptyOrMatching 0x04 State.reset 1 := by
  refine ⟨⟨.inl (by simp [State.reset]), fun j hj => absurd hj (by omega)⟩, fun h => ?_⟩
  exact (h.2 0 (by decide)).1 (by simp [State.reset])

/-- Six slots full of one key, and another key pressed. -/
theorem witness_SeventhKey : ∃ (c : Byte) (s : State), IsKey c ∧ c ≠ 0x00#8 ∧ ∀ i : Fin 6, s.kbSlot[i] ≠ 0x00#8 ∧ s.kbSlot[i] ≠ c := by
  obtain ⟨_, a, b, ha, _, ha0, hb0, hab⟩ := witness_keys
  exact ⟨a, { State.reset with kbSlot := Vector.replicate Config.nSlots b }, ha, ha0, fun i => by simp [hb0, Ne.symm hab]⟩

theorem witness_Represss : State.reset.kbSlot = Vector.replicate 6 0x00#8 := rfl

theorem witness_RepeatedPress :
    P0.modUpdate = .setClear ∧ isModifier P0 0x04 = false ∧ P1.modUpdate = .xor ∧ isModifier P1 0xE7 = true := by decide

theorem witness_Toggle : isModifier P0 0xE0 = true ∧ State.reset.kbMod &&& modifierBit P0 0xE0 = 0x00#8 := by decide

/-- The first and the last payload byte of the longest frame. -/
theorem witness_RxByteStoresThePayload :
    RxCounts (afterHeader .pay 0x83 0xFF) ∧ RxCounts { afterHeader .pay 0x83 0xFF with rxIdx := 0xFE } := by
  simp [RxCounts, afterHeader, State.reset]

theorem witness_rxPhases (p : RxPhase) : ({ State.reset with rxPhase := p } : State).rxPhase = p := rfl

/-- A frame whose five header bytes `SYNC_HI SYNC_LO 00 82 01` have been taken. -/
def midFrame : State :=
  { State.reset with
    rxPhase := .pay
    rxSum := sum8 [Config.params.syncHi, Config.params.syncLo, 0x00, 0x82, 0x01]
    rxCmd := 0x82
    rxLen := 0x01 }

theorem witness_RxHolds : RxHolds Config.params [Config.params.syncHi, Config.params.syncLo, 0x00, 0x82, 0x01] midFrame ∧
    midFrame.rxPhase ≠ .csum := by
  simp [RxHolds, midFrame, rxCount, RxCounts, syncMatches, State.reset]

theorem witness_Inv : Inv midFrame ∧ singleHost midFrame.host = true := by
  refine ⟨⟨fun c hc => ?_, _, witness_RxHolds.1⟩, rfl⟩
  have : c = 0x00#8 := by simpa [midFrame, State.reset] using hc
  rw [this]; exact isModifier_zero _

theorem witness_ByteSerialDecoding : State.reset.rxPhase = .h0 ∧ ([0x57] : List Byte) ≠ [] := by decide

/-- An instruction that answers an error, one that answers OK, and a step. -/
theorem witness_exec :
    (∃ t, exec (.decode []) State.reset = .next t ∧ t.response = err (.truncated 0)) ∧
      (∃ t, exec (.keyDown 0x04) State.reset = .next t) ∧ (∃ t, exec (.keyUp 0x04) State.reset = .next t) ∧
      (∃ t, exec (.rxByte 0x57) State.reset = .next t) ∧ (∃ t, exec .rxEnd State.reset = .next t) ∧
      (∃ t, exec (.reset []) State.reset = .next t) ∧ ∃ t, step midFrame = .next t :=
  ⟨⟨_, rfl, rfl⟩, ⟨_, rfl⟩, ⟨_, rfl⟩, ⟨_, rfl⟩, ⟨_, rfl⟩, ⟨_, rfl⟩, ⟨_, rfl⟩⟩

theorem witness_Same : SameKeyboard State.reset midFrame ∧ SameReceiver State.reset (slots 1 2 3 4 5 6) := by
  simp [SameKeyboard, SameReceiver, SameRxData, midFrame, slots]

theorem witness_hostEvents (r : Request) :
    ({ State.reset with host := [.reset] } : State).host = .reset :: [] ∧
      ({ State.reset with host := [.otherAgent r] } : State).host = .otherAgent r :: [] ∧ State.reset.host = [] :=
  ⟨rfl, rfl, rfl⟩

/-- A run with a request, its response received and checked, and the next request. -/
def roundTrip : List Instr :=
  [.keyDown 0x04] ++ [.decode (frameBytes 0x82#8 [0x00#8]), .matchResponse 0x02 ⟨0x00#8, 0x82#8, [0x00#8]⟩] ++ [.keyUp 0x04]

/-- DECODE takes the frame of a keyboard acknowledgement, whatever the sync bytes are. -/
theorem decodes_acknowledgement :
    parseFrame Config.params (frameBytes 0x82#8 [0x00#8]) = .ok (.decoded ⟨0x00#8, 0x82#8, [0x00#8]⟩ []) := by
  have h := parseFrame_whole Config.params Config.params.syncHi Config.params.syncLo 0x00#8 0x82#8 0x01#8 [0x00#8]
    (lowByteSum (unsummed 0x82#8 [0x00#8])) [] rfl
  simpa [frameBytes, unsummed, lowByteSum, sum8_eq_ofNat] using h

theorem witness_roundTrip :
    ∃ es t w, run roundTrip State.reset = some (es, t) ∧ follow .idle es = some w ∧ oneInFlight es = true ∧
      w = .awaiting 0x02 := by
  have h (s : State) : exec (.decode (frameBytes 0x82#8 [0x00#8])) s =
      .next (returnOk (.decoded ⟨0x00#8, 0x82#8, [0x00#8]⟩ []) s) := by
    simp [exec, execDecode, decodes_acknowledgement]
  simp only [roundTrip, List.cons_append, List.nil_append, run, h]
  exact ⟨_, _, _, rfl, rfl, rfl, rfl⟩

theorem witness_SendsRequest :
    SendsRequest (.keyDown 0x04) 0x02 ∧ SendsRequest (.getInfo []) 0x01 ∧ ¬ SendsRequest (.encode 0x82 []) 0x82 := by
  simp [SendsRequest, BuildsFrame]

/-- The check of another frame with the same answer is no check of the response. -/
theorem witness_Checks :
    Checks (checked 0x02 (fr 0x82 [0])) 0x02 (fr 0x82 [0]) ∧ ¬ Checks (checked 0x02 (fr 0x82 [1, 2])) 0x02 (fr 0x82 [0]) ∧
      ¬ Checks (checked 0x01 (fr 0x82 [0])) 0x02 (fr 0x82 [0]) := by
  refine ⟨⟨.inl rfl, .ok, rfl, fun _ => rfl⟩, fun h => ?_, fun h => ?_⟩ <;>
    rcases h.1 with h | ⟨p, h, -⟩ <;> simp [checked, fr, ReadsResponse] at h

theorem witness_sendsFrame (f : Frame) : sendsFrame (.keyDown 0x04) = true ∧ sendsFrame (.classify f) = false ∧
    sendsFrame (.encode 0x01 longest) = true ∧ sendsFrame (.encode 0x01 tooLong) = false := by
  simp [sendsFrame, longest_length, tooLong_length]

end Sys2Proof.Tests
end

section
/-!
PROOFS. The encoding family: ENCODE builds the frame of R56, R58 and R61, and the error bytes of R66.
-/

namespace Sys2Proof.Form

open Sys2Proof.Machine

/-! ## The statements' forms and the model's operations -/

/-- The statements' byte sum is the model's `sum8` (R13, R58). -/
theorem lowByteSum_eq_sum8 (l : List Byte) : lowByteSum l = sum8 l := (sum8_eq_ofNat l).symm

/-- The model's wire form at the constant address is the frame the statements write out (R56, R58, R61, R88). -/
theorem wire_params_eq_frameBytes (c : Byte) (p : List Byte) :
    wire Config.params ⟨0x00#8, c, p⟩ = frameBytes c p := by
  have hbody : header Config.params ⟨0x00#8, c, p⟩ ++ p = unsummed c p := rfl
  rw [wire, checksum, hbody, ← lowByteSum_eq_sum8, frameBytes]

/-- The model's emission is the statements' `sent`. -/
theorem emitOk_eq_sent (w : List Byte) (s : State) : emitOk w s = sent w s := rfl

/-- The model's result without emission is the statements' `answered` with status OK. -/
theorem returnOk_eq_answered (r : Result) (s : State) : returnOk r s = answered .ok r s := rfl

/-- The shared body of ENCODE and the requests, for a payload that fits (R89, R130). -/
theorem sendFrame_params_eq_sent {c : Byte} {p : List Byte} {s : State} (h : p.length ≤ 255) :
    sendFrame Config.params c p s = sent (frameBytes c p) s := by
  rw [sendFrame_params_fits h, wire_params_eq_frameBytes, emitOk_eq_sent]

/-! ## ENCODE -/

/-- ENCODE's meaning is the shared body at its operands (R89). -/
theorem exec_encode (c : Byte) (p : List Byte) (s : State) :
    exec (.encode c p) s = .next (sendFrame Config.params c p s) := rfl

/-- Settles O7: ENCODE is `sendFrame`, which sends a fitting payload as the frame of R56, R58 and R61. -/
theorem encodeBuildsTheFrame : Obligations.EncodeBuildsTheFrame := by
  intro c p s hfits
  rw [exec_encode, sendFrame_params_eq_sent hfits]

/-! ## CLASSIFY and the error bytes -/

/-- CLASSIFY's meaning is its code, answered as data (R101). -/
theorem exec_classify (f : Frame) (s : State) :
    exec (.classify f) s = .next (answered .ok (.code (classifyCode Config.params f)) s) := rfl

/-- The code of a one-byte response is that byte (R66, R101). -/
theorem classifyCode_oneByte {a c e : Byte} (h : 128 ≤ c.toNat) :
    classifyCode Config.params ⟨a, c, [e]⟩ = e := by
  simp [classifyCode, h]

/-- A non-zero value outside 0xE1 to 0xE6 has no name (R66). -/
theorem errorByte_of_unlisted {c : Byte} (hzero : c ≠ 0x00#8) (hrange : c.toNat < 0xE1 ∨ 0xE6 < c.toNat) :
    errorByte c = .unnamed c := by
  have hpos : c.toNat ≠ 0 := fun h => hzero (BitVec.eq_of_toNat_eq h)
  unfold errorByte
  split
  case h_8 => rfl
  all_goals omega

/-- Only 0x00 reads as success (R66, R102). -/
theorem errorByte_eq_success_iff {c : Byte} : errorByte c = .success ↔ c = 0x00#8 := by
  refine ⟨fun h => ?_, fun h => h ▸ rfl⟩
  unfold errorByte at h
  split at h
  case h_1 hzero => exact BitVec.eq_of_toNat_eq hzero
  all_goals cases h

/-- Settles O48: CLASSIFY answers the one payload byte, and the table of R66 names it. -/
theorem errorByteNames : Obligations.ErrorByteNames := by
  refine ⟨fun a c e s hresp => ?_, rfl, rfl, rfl, rfl, rfl, rfl, rfl,
    fun _ => errorByte_of_unlisted, fun _ => errorByte_eq_success_iff.mp⟩
  rw [exec_classify, classifyCode_oneByte hresp]

end Sys2Proof.Form
end

section
/-!
PROOFS. The frame codec family: the checksum as a sum of its parts, and the byte a frame ends in.
-/

namespace Sys2Proof.Form

open Sys2Proof.Machine

/-! ## The checksum, for any parameters -/

/-- The value of a byte sum (R13). -/
theorem sum8_toNat (l : List Byte) : (sum8 l).toNat = (l.map BitVec.toNat).sum % 256 := by
  rw [sum8_eq_ofNat, BitVec.toNat_ofNat]

/-- The value of `S0` (R10). -/
theorem s0_toNat (P : Config.Params) : P.s0.toNat = (P.syncHi.toNat + P.syncLo.toNat) % 256 :=
  BitVec.toNat_add ..

/-- The byte checksum splits into `S0`, the address, the command, the length byte and the payload's sum (R87). -/
theorem checksum_eq_add (P : Config.Params) (a c : Byte) (p : List Byte) :
    checksum P ⟨a, c, p⟩ = P.s0 + a + c + lengthByte p + sum8 p := by
  simp [checksum, header, Config.Params.s0, BitVec.add_assoc]

/-- The checksum's value, for a payload whose length is its length byte (R60, R87). -/
theorem checksum_toNat (P : Config.Params) (a c : Byte) {p : List Byte} (h : p.length ≤ 255) :
    (checksum P ⟨a, c, p⟩).toNat =
      (P.s0.toNat + a.toNat + c.toNat + p.length + (p.map BitVec.toNat).sum) % 256 := by
  rw [checksum_eq_add]
  simp only [BitVec.toNat_add, lengthByte_toNat h, sum8_toNat]
  omega

/-- The wire form ends in the checksum (R56, R88). -/
theorem wire_getLast? (P : Config.Params) (f : Frame) : (wire P f).getLast? = some (checksum P f) :=
  List.getLast?_concat

/-! ## The checksum of the block, and ENCODE's last byte -/

/-- The checksum at the block's parameters is the statements' sum of the header and the payload (R58). -/
theorem checksum_params_eq_lowByteSum (a c : Byte) (p : List Byte) :
    checksum Config.params ⟨a, c, p⟩ =
      lowByteSum ([Config.params.syncHi, Config.params.syncLo, a, c, BitVec.ofNat 8 p.length] ++ p) := by
  rw [lowByteSum_eq_sum8]; rfl

/-- After a fitting payload is sent, the last byte on the stream is the checksum at the constant address (R88, R89). -/
theorem sendFrame_params_tx_getLast? {c : Byte} {p : List Byte} (h : p.length ≤ 255) (s : State) :
    (sendFrame Config.params c p s).tx.getLast? = some (checksum Config.params ⟨0x00#8, c, p⟩) := by
  rw [sendFrame_params_fits h, emitOk_tx, List.getLast?_append, wire_getLast?, Option.some_or]

/-- Settles O8: the byte sum splits into the five parts, and the frame that ENCODE emits ends in it. -/
theorem checksumIsTheSumOfItsParts : Obligations.ChecksumIsTheSumOfItsParts := by
  refine ⟨s0_toNat _, fun a c p hfits => ⟨checksum_params_eq_lowByteSum a c p, checksum_toNat _ a c hfits, fun s => ?_⟩⟩
  exact ⟨_, exec_encode c p s, sendFrame_params_tx_getLast? hfits s⟩

end Sys2Proof.Form
end

section
/-!
PROOFS. The keyboard family: what a press and a release of a non-modifier code do to the six slots (R114, R115, R117).
-/

namespace Sys2Proof.Form

open Sys2Proof.Machine

/-! ## Keys are the non-modifier codes -/

/-- A key code is no modifier code (R112). -/
theorem isModifier_eq_false {c : Byte} (hkey : IsKey c) : isModifier Config.params c = false := by
  rw [Bool.eq_false_iff, Ne, isModifier_params_iff]
  rcases hkey with hbelow | habove <;> omega

/-! ## The slot scans, slot by slot -/

/-- Only one slot is the first that is empty or holds the code. -/
theorem FirstEmptyOrMatching.unique {c : Byte} {s : State} {i j : Fin 6}
    (hi : FirstEmptyOrMatching c s i) (hj : FirstEmptyOrMatching c s j) : i = j := by
  obtain ⟨hopenI, hbeforeI⟩ := hi
  obtain ⟨hopenJ, hbeforeJ⟩ := hj
  rcases lt_trichotomy i j with hlt | heq | hgt
  · exact absurd hopenI (not_or.mpr (hbeforeJ i hlt))
  · exact heq
  · exact absurd hopenJ (not_or.mpr (hbeforeI j hgt))

/-- With six slots that are non-empty and hold other codes, a press changes no slot (R115). -/
theorem pressSlots_full {c : Byte} {v : Vector Byte Config.nSlots}
    (h : ∀ i : Fin 6, v[i] ≠ 0x00#8 ∧ v[i] ≠ c) : pressSlots Config.params c v = v := by
  refine Vector.toList_inj.mp ((pressSlots_toList c v).trans (pressScan_full fun x hx => ?_))
  obtain ⟨i, hi, rfl⟩ := Vector.getElem_of_mem (Vector.mem_toList_iff.mp hx)
  exact h ⟨i, hi⟩

/-- A press writes the first slot that is empty or holds the code; if there is none, it changes no slot (R114, R115). -/
theorem pressSlots_cases (c : Byte) (s : State) :
    (∃ k : Fin 6, FirstEmptyOrMatching c s k ∧ pressSlots Config.params c s.kbSlot = s.kbSlot.set k c) ∨
      ((∀ i : Fin 6, ¬ FirstEmptyOrMatching c s i) ∧ pressSlots Config.params c s.kbSlot = s.kbSlot) := by
  rcases pressScan_cases c s.kbSlot.toList with ⟨k, x, hk, hx, hbefore, hscan⟩ | ⟨hfull, hscan⟩
  · obtain ⟨hlt, rfl⟩ := List.getElem?_eq_some_iff.mp hk
    have hlt6 : k < 6 := by simpa using hlt
    refine .inl ⟨⟨k, hlt6⟩, ⟨by simpa using hx, fun j hj => ?_⟩, ?_⟩
    · exact hbefore j _ hj (by simp)
    · exact Vector.toList_inj.mp (by simp [hscan, Vector.toList_set])
  · refine .inr ⟨fun i hi => ?_, Vector.toList_inj.mp (by simp [hscan])⟩
    exact not_or.mpr (hfull s.kbSlot[i] (by simp)) hi.1

/-- A release acts on each slot by itself (R117). -/
theorem releaseSlots_getElem (c : Byte) (v : Vector Byte Config.nSlots) (i : Fin 6) :
    (releaseSlots Config.params c v)[i] = if v[i] = c then 0x00#8 else v[i] := by
  have hmap : releaseSlots Config.params c v = v.map fun x => if x = c then 0x00#8 else x :=
    Vector.toList_inj.mp (by simp [releaseScan_eq_map, Vector.toList_map])
  simp [hmap]

/-! ## KEY_DOWN and KEY_UP of a key -/

/-- KEY_DOWN's meaning is the state after a press (R119). -/
theorem exec_keyDown (c : Byte) (s : State) : exec (.keyDown c) s = .next (keyDownState Config.params c s) := rfl

/-- KEY_UP's meaning is the state after a release (R120). -/
theorem exec_keyUp (c : Byte) (s : State) : exec (.keyUp c) s = .next (keyUpState Config.params c s) := rfl

/-- A press of a key keeps KB_MOD (R114). -/
theorem keyDownState_kbMod_of_isKey {c : Byte} (hkey : IsKey c) (s : State) :
    (keyDownState Config.params c s).kbMod = s.kbMod := by
  rw [keyDownState_kbMod, pressKey_key (isModifier_eq_false hkey)]

/-- A press of a key runs the press scan over the slots (R114). -/
theorem keyDownState_kbSlot_of_isKey {c : Byte} (hkey : IsKey c) (s : State) :
    (keyDownState Config.params c s).kbSlot = pressSlots Config.params c s.kbSlot := by
  rw [keyDownState_kbSlot, pressKey_key (isModifier_eq_false hkey)]

/-- A release of a key keeps KB_MOD (R117). -/
theorem keyUpState_kbMod_of_isKey {c : Byte} (hkey : IsKey c) (s : State) :
    (keyUpState Config.params c s).kbMod = s.kbMod := by
  rw [keyUpState_kbMod, releaseKey_key (isModifier_eq_false hkey)]

/-- A release of a key runs the release scan over the slots (R117). -/
theorem keyUpState_kbSlot_of_isKey {c : Byte} (hkey : IsKey c) (s : State) :
    (keyUpState Config.params c s).kbSlot = releaseSlots Config.params c s.kbSlot := by
  rw [keyUpState_kbSlot, releaseKey_key (isModifier_eq_false hkey)]

/-- Settles O23: the scan writes one slot, which is the only first empty or matching one, or there is no such slot and it writes none. -/
theorem pressFillsFirstEmptyOrMatchingSlot : Obligations.PressFillsFirstEmptyOrMatchingSlot := by
  intro c s hkey
  refine ⟨_, exec_keyDown c s, keyDownState_kbMod_of_isKey hkey s, fun i => ?_⟩
  rw [keyDownState_kbSlot_of_isKey hkey]
  rcases pressSlots_cases c s with ⟨k, hk, hpress⟩ | ⟨hnone, hpress⟩
  · rw [hpress]
    constructor
    · intro hi
      simp [hi.unique hk]
    · intro hi
      have hne : k.val ≠ i.val := fun h => hi (Fin.ext h ▸ hk)
      exact Vector.getElem_set_ne k.isLt i.isLt hne
  · exact ⟨fun hi => absurd hi (hnone i), fun _ => by rw [hpress]⟩

/-- Settles O24: with six slots holding other codes the press scan changes none, and the frame is answered OK. -/
theorem seventhKeyIsDropped : Obligations.SeventhKeyIsDropped := by
  intro c s hkey hfull
  have hslots : (keyDownState Config.params c s).kbSlot = s.kbSlot :=
    (keyDownState_kbSlot_of_isKey hkey s).trans (pressSlots_full hfull)
  exact ⟨_, _, exec_keyDown c s, ⟨keyDownState_kbMod_of_isKey hkey s, hslots⟩, keyDownState_response .., rfl⟩

/-- Settles O25: the release scan acts on each slot by itself. -/
theorem releaseClearsEveryMatchingSlot : Obligations.ReleaseClearsEveryMatchingSlot := by
  intro c s hkey
  refine ⟨_, exec_keyUp c s, keyUpState_kbMod_of_isKey hkey s, fun i => ?_⟩
  rw [keyUpState_kbSlot_of_isKey hkey, releaseSlots_getElem]

end Sys2Proof.Form
end

section
/-!
PROOFS. The exceptions family: DECODE of a frame with the protocol's own header, and its ChecksumError (R149).
-/

namespace Sys2Proof.Form

open Sys2Proof.Machine

/-- The model's error status is the statements' `answered` with that error (R156). -/
theorem raise_eq_answered (e : Error) (s : State) : raise e s = answered (.error e) .nothing s := rfl

/-- DECODE's meaning is the parse of its input, answered without a change of any register (R92). -/
theorem exec_decode (b : List Byte) (s : State) :
    exec (.decode b) s = .next (finish (parseFrame Config.params b) s) := rfl

/-- After the protocol's own header and the payload it announces, only the checksum byte decides the parse (R92, R94, R96). -/
theorem parseFrame_params_unsummed {p : List Byte} (hfits : p.length ≤ 255) (c x : Byte) (r : List Byte) :
    parseFrame Config.params (unsummed c p ++ [x] ++ r) =
      if x ≠ lowByteSum (unsummed c p) then
        .error (.checksumError x (lowByteSum (unsummed c p)) (6 + (lengthByte p).toNat))
      else .ok (.decoded ⟨0x00#8, c, p⟩ r) := by
  have hheader : ¬ (Config.params.syncHi ≠ Config.params.syncHi ∨ Config.params.syncLo ≠ Config.params.syncLo ∨
      0x00#8 ≠ 0x00#8) := by simp
  have hparse := parseFrame_params_whole Config.params.syncHi Config.params.syncLo 0x00#8 c (lengthByte p) p x r
    (lengthByte_toNat hfits).symm
  rw [if_neg hheader, ← lowByteSum_eq_sum8] at hparse
  exact hparse

/-- Settles O12: with the protocol's header in place the parse turns on the checksum byte alone, and its error is raised as it is. -/
theorem checksumMismatchIsChecksumError : Obligations.ChecksumMismatchIsChecksumError := by
  intro c p x r s hfits hmismatch
  refine ⟨6 + (lengthByte p).toNat, ?_⟩
  rw [exec_decode, parseFrame_params_unsummed hfits, if_pos hmismatch, finish_error, raise_eq_answered]

end Sys2Proof.Form
end

section
/-!
PROOFS. The decoder: operation words (R69 to R71, R75), the command codes (R63, R64), and the round trip with the encoder.
-/

namespace Sys2Proof.Form

open Sys2Proof.Machine

/-! ## The fields of an operation word (R69) -/

theorem rsvField_toNat (w : OpWord) : (rsvField w).toNat = w.toNat / 2048 := by
  have hw := w.isLt
  simp only [rsvField, BitVec.extractLsb'_toNat, Nat.shiftRight_eq_div_pow]
  omega

theorem opField_toNat (w : OpWord) : (opField w).toNat = w.toNat / 256 % 8 := by
  simp [opField, BitVec.extractLsb'_toNat, Nat.shiftRight_eq_div_pow]

theorem argField_toNat (w : OpWord) : (argField w).toNat = w.toNat % 256 := by
  simp [argField, BitVec.extractLsb'_toNat]

@[simp] theorem rsvField_opWord (op : BitVec 3) (a : Byte) : rsvField (opWord op a) = 0#5 := by
  apply BitVec.eq_of_toNat_eq
  have hop := op.isLt
  have ha := a.isLt
  rw [rsvField_toNat, Laws.EncodesAsRow.opWord_toNat, BitVec.toNat_ofNat]
  omega

@[simp] theorem opField_opWord (op : BitVec 3) (a : Byte) : opField (opWord op a) = op := by
  apply BitVec.eq_of_toNat_eq
  have hop := op.isLt
  rw [opField_toNat, Laws.EncodesAsRow.opWord_high]
  omega

@[simp] theorem argField_opWord (op : BitVec 3) (a : Byte) : argField (opWord op a) = a := by
  apply BitVec.eq_of_toNat_eq
  have ha := a.isLt
  rw [argField_toNat, Laws.EncodesAsRow.opWord_toNat]
  omega

/-! ## The eight operations (R70) -/

theorem decodeWord_encode (a : Byte) (o : Operand) : decodeWord (opWord 0 a) o = .ok (.encode a o.bytes) := by
  simp [decodeWord]

theorem decodeWord_decode (o : Operand) : decodeWord (opWord 1 0x00#8) o = .ok (.decode o.bytes) := by
  simp [decodeWord, decodeZeroArg]

theorem decodeWord_classify (o : Operand) : decodeWord (opWord 2 0x00#8) o = .ok (.classify o.frame) := by
  simp [decodeWord, decodeZeroArg]

theorem decodeWord_matchResponse (a : Byte) (o : Operand) :
    decodeWord (opWord 3 a) o = .ok (.matchResponse a o.frame) := by
  simp [decodeWord]

theorem decodeWord_keyDown (a : Byte) (o : Operand) : decodeWord (opWord 4 a) o = .ok (.keyDown a) := by
  simp [decodeWord]

theorem decodeWord_keyUp (a : Byte) (o : Operand) : decodeWord (opWord 5 a) o = .ok (.keyUp a) := by
  simp [decodeWord]

theorem decodeWord_rxByte (a : Byte) (o : Operand) : decodeWord (opWord 6 a) o = .ok (.rxByte a) := by
  simp [decodeWord]

theorem decodeWord_rxEnd (o : Operand) : decodeWord (opWord 7 0x00#8) o = .ok .rxEnd := by
  simp [decodeWord, decodeZeroArg]

/-- The number `op * 256 + arg` is the operation word with these fields (R69). -/
theorem ofNat_eq_opWord (op : BitVec 3) (a : Byte) : BitVec.ofNat 16 (op.toNat * 256 + a.toNat) = opWord op a := by
  apply BitVec.eq_of_toNat_eq
  have hop := op.isLt
  have ha := a.isLt
  rw [BitVec.toNat_ofNat, Laws.EncodesAsRow.opWord_toNat]
  omega

/-- Settles O3: each listed word is the operation word of its selector and argument. -/
theorem operationWordsSpellTheEightOperations : Obligations.OperationWordsSpellTheEightOperations := by
  intro a o
  have hword (op : BitVec 3) {i : Instr} (h : decodeWord (opWord op a) o = .ok i) :
      decode (.op (BitVec.ofNat 16 (op.toNat * 256 + a.toNat)) o) = .ok i := by
    rw [ofNat_eq_opWord]; exact h
  exact ⟨hword 0 (decodeWord_encode a o), decodeWord_decode o, decodeWord_classify o,
    hword 3 (decodeWord_matchResponse a o), hword 4 (decodeWord_keyDown a o), hword 5 (decodeWord_keyUp a o),
    hword 6 (decodeWord_rxByte a o), decodeWord_rxEnd o⟩

/-! ## The command codes (R63, R64) -/

/-- `CMD_RESET` is one of 0x06 to 0x0F (R63; log 4). -/
theorem cmdReset_range (P : Config.Params) : 6 ≤ P.cmdReset.toNat ∧ P.cmdReset.toNat ≤ 15 := by
  have hoffset := P.resetOffset.isLt
  simp only [Config.Params.cmdReset, BitVec.toNat_ofNat]
  omega

theorem isResetCode_cmdReset (P : Config.Params) : isResetCode P P.cmdReset = true :=
  decide_eq_true ⟨(cmdReset_range P).1, (cmdReset_range P).2, rfl⟩

/-- The request-side code `CMD_RESET` names Reset (R63). -/
theorem decodeRequest_cmdReset (P : Config.Params) (p : List Byte) : decodeRequest P P.cmdReset p = .reset p := by
  have hrange := cmdReset_range P
  unfold decodeRequest
  split
  case h_6 => exact if_pos (isResetCode_cmdReset P)
  all_goals omega

/-- A response-side code whose request code is `CMD_RESET` names Reset's response (R64). -/
theorem decodeResponse_cmdReset {P : Config.Params} {code : Byte} (h : requestCode P code = P.cmdReset) (p : List Byte) :
    decodeResponse P code p = .resetResp p := by
  have hrange := cmdReset_range P
  unfold decodeResponse
  rw [h]
  split
  case h_6 => exact if_pos (isResetCode_cmdReset P)
  all_goals omega

theorem decode_cmdReset (p : List Byte) : decode (.command Config.params.cmdReset p) = .ok (.reset p) := by
  have hrequest : isResponseCode Config.params Config.params.cmdReset = false := by
    have hrange := cmdReset_range Config.params
    rw [isResponseCode_params, decide_eq_false_iff_not]
    omega
  rw [decode, decodeWith, decodeCommand, hrequest, if_neg Bool.false_ne_true, decodeRequest_cmdReset]

/-- Clearing bit 7 undoes setting it in a request code (R62). -/
theorem requestCode_responseCode {c : Byte} (h : c.toNat < 128) :
    requestCode Config.params (responseCode Config.params c) = c := by
  revert c; simp only [requestCode_params, responseCode_params]; decide

theorem decode_cmdReset_response (p : List Byte) :
    decode (.command (responseCode Config.params Config.params.cmdReset) p) = .ok (.resetResp p) := by
  have hrange := cmdReset_range Config.params
  have hlow : Config.params.cmdReset.toNat < 128 := by omega
  have hresponse : isResponseCode Config.params (responseCode Config.params Config.params.cmdReset) = true := by
    rw [isResponseCode_params, responseCode_toNat hlow, decide_eq_true_iff]
    omega
  rw [decode, decodeWith, decodeCommand, hresponse, if_pos rfl, decodeResponse_cmdReset (requestCode_responseCode hlow)]

/-- Settles O6: the five listed codes and their responses are read off the table, the open code by its range. -/
theorem commandCodesNameTheWireCommands : Obligations.CommandCodesNameTheWireCommands := fun p =>
  ⟨rfl, rfl, rfl, rfl, rfl, rfl, rfl, rfl, rfl, rfl, decode_cmdReset p, decode_cmdReset_response p⟩

/-- Settles O5: an operation is decoded from its word's fields, a wire command from its code. -/
theorem decodeInvertsEncode : Obligations.DecodeInvertsEncode := by
  intro i _
  cases i with
  | encode c p => exact decodeWord_encode c _
  | decode b => exact decodeWord_decode _
  | classify f => exact decodeWord_classify _
  | matchResponse q f => exact decodeWord_matchResponse q _
  | keyDown c => exact decodeWord_keyDown c _
  | keyUp c => exact decodeWord_keyUp c _
  | rxByte b => exact decodeWord_rxByte b _
  | rxEnd => exact decodeWord_rxEnd noOperand
  | reset p => exact decode_cmdReset p
  | resetResp p => exact decode_cmdReset_response p
  | _ => rfl

/-! ## One step of the machine -/

/-- Settles O1: the block takes the oldest event, decodes it and runs it. -/
theorem stepRunsDecodedInstruction : Obligations.StepRunsDecodedInstruction := by
  intro s r later i hhost hdecode
  simp [step, transaction, hhost, hdecode]

/-- Settles O2: the eight words are closed, so the decoder computes on them. -/
theorem specWordsDecodeAsListed : Obligations.SpecWordsDecodeAsListed := by
  refine ⟨?_, ?_, ?_, ?_, ?_, ?_, ?_, ?_⟩ <;> decide

/-- A word with `rsv` set, or an argument where the operation takes none, is reserved (R71). -/
theorem decodeWord_reserved {w : OpWord} (o : Operand)
    (h : w.toNat / 2048 ≠ 0 ∨
      ((w.toNat / 256 = 1 ∨ w.toNat / 256 = 2 ∨ w.toNat / 256 = 7) ∧ w.toNat % 256 ≠ 0)) :
    decodeWord w o = .error (.reservedOp w) := by
  by_cases hrsv : rsvField w = 0#5
  · have hzero : w.toNat / 2048 = 0 := by rw [← rsvField_toNat, hrsv]; rfl
    obtain ⟨hop, harg⟩ := h.resolve_left (not_not_intro hzero)
    have harg' : ∀ i, decodeZeroArg w i = .error (.reservedOp w) := fun i =>
      if_neg fun heq => harg (by rw [← argField_toNat, heq]; rfl)
    have hopField := opField_toNat w
    rcases hop with hop | hop | hop <;> rw [hop] at hopField <;> simp [decodeWord, hrsv, hopField, harg']
  · exact if_neg hrsv

/-- Settles O4: the decoder rejects the word, and the step raises the rejection. -/
theorem reservedWordRaisesReservedOp : Obligations.ReservedWordRaisesReservedOp := by
  intro s w o later hhost hreserved
  have hdecode : decode (.op w o) = .error (.reservedOp w) := decodeWord_reserved o hreserved
  simp only [step, transaction, hhost, hdecode, raise_eq_answered]

/-- Settles O52: the transaction rule on an empty list of events. -/
theorem nothingPresentedNothingHappens : Obligations.NothingPresentedNothingHappens := by
  intro s hhost
  simp only [step, transaction, hhost]

/-- Settles O53: the transaction rule on an event of another agent. -/
theorem secondAgentIsRefused : Obligations.SecondAgentIsRefused := by
  intro s r later hhost
  simp only [step, transaction, hhost]

/-- Settles O50: the values of `State.reset`, one by one. -/
theorem resetValues : Obligations.ResetValues := ⟨rfl, rfl, rfl, rfl, rfl, rfl, rfl, rfl, rfl⟩

/-- Settles O51: the step is `resetRegisters`, which keeps the stream and the later events. -/
theorem resetEventResetsTheRegisters : Obligations.ResetEventResetsTheRegisters := by
  intro s later hhost
  refine ⟨resetRegisters { s with host := later }, ?_, rfl, rfl, rfl, rfl, rfl, rfl, rfl, rfl, rfl, rfl, rfl⟩
  simp only [step, transaction, hhost]

end Sys2Proof.Form
end

section
/-!
PROOFS. The instructions by family, each with what it does: the operations that only read, the operations that build a frame from a payload,
the key operations and the receiver's two. Then the frames themselves: requests, DECODE, and what the checksum detects.
-/

namespace Sys2Proof.Form

open Sys2Proof.Machine Sys2Proof.Safety

/-! ## The families of instructions -/

/-- Every instruction only reads, builds a frame from a payload, is a key operation, or is one of the receiver. -/
theorem instr_cases (i : Instr) :
    ReadsOnly i ∨ (∃ c p, BuildsFrame i c p) ∨ (∃ c, i = .keyDown c ∨ i = .keyUp c) ∨ (∃ b, i = .rxByte b) ∨
      i = .rxEnd := by
  cases i <;> simp [ReadsOnly, BuildsFrame]

/-- An operation that only reads ends in an outcome that does not depend on the state (R48). -/
theorem ReadsOnly.exec_eq {i : Instr} (h : ReadsOnly i) : ∃ o, ∀ s, exec i s = .next (finish o s) := by
  rcases h with ⟨b, rfl⟩ | ⟨f, rfl⟩ | ⟨q, f, rfl⟩ | ⟨p, rfl⟩ | ⟨p, rfl⟩ | ⟨p, rfl⟩ | ⟨p, rfl⟩ | ⟨p, rfl⟩ | ⟨p, rfl⟩
  case inr.inl => exact ⟨.ok _, fun _ => rfl⟩
  all_goals exact ⟨_, fun _ => rfl⟩

/-- ENCODE and the six requests share ENCODE's body (R130). -/
theorem BuildsFrame.exec_eq {i : Instr} {c : Byte} {p : List Byte} (h : BuildsFrame i c p) (s : State) :
    exec i s = .next (sendFrame Config.params c p s) := by
  rcases h with rfl | ⟨rfl, rfl⟩ | ⟨rfl, rfl⟩ | ⟨rfl, rfl⟩ | ⟨rfl, rfl⟩ | ⟨rfl, rfl⟩ | ⟨rfl, rfl⟩ <;> rfl

/-- A response row is MATCH_RESPONSE of its request code on its parsed frame (R130; log 11). -/
theorem ReadsResponse.exec_eq {i : Instr} {q : Byte} {p : List Byte} (h : ReadsResponse i q p) (s : State) :
    exec i s = exec (.matchResponse q ⟨0x00#8, q ||| 0x80#8, p⟩) s := by
  rcases h with ⟨rfl, rfl⟩ | ⟨rfl, rfl⟩ | ⟨rfl, rfl⟩ | ⟨rfl, rfl⟩ | ⟨rfl, rfl⟩ | ⟨rfl, rfl⟩ <;> rfl

/-- The request codes of the six responses have bit 7 clear (R63). -/
theorem ReadsResponse.code_lt {i : Instr} {q : Byte} {p : List Byte} (h : ReadsResponse i q p) : q.toNat < 128 := by
  have hreset := cmdReset_range Config.params
  rcases h with ⟨-, rfl⟩ | ⟨-, rfl⟩ | ⟨-, rfl⟩ | ⟨-, rfl⟩ | ⟨-, rfl⟩ | ⟨-, rfl⟩
  case inr.inr.inr.inr.inr => omega
  all_goals decide

/-! ## ENCODE and the requests -/

/-- Settles O9: a request is the shared body at its code, which sends a fitting payload. -/
theorem wireRequestsEmitTheirFrames : Obligations.WireRequestsEmitTheirFrames := by
  intro i c p s hbuilds hfits
  rw [hbuilds.exec_eq, sendFrame_params_eq_sent hfits]

/-- Settles O10: a request is the shared body at its code, which rejects a payload that does not fit. -/
theorem longPayloadsAreRejected : Obligations.LongPayloadsAreRejected := by
  intro i c p s hbuilds hlong
  rw [hbuilds.exec_eq, sendFrame_params_tooLong hlong, raise_eq_answered]

/-! ## DECODE -/

/-- The parse of a whole frame is answered as R92 writes it. -/
theorem finish_parseFrame_whole (b0 b1 b2 b3 b4 : Byte) (p : List Byte) (cs : Byte) (rest : List Byte) (s : State)
    (h : p.length = b4.toNat) :
    finish (parseFrame Config.params ([b0, b1, b2, b3, b4] ++ p ++ [cs] ++ rest)) s =
      decodeAnswer b0 b1 b2 b3 b4 p cs rest s := by
  rw [parseFrame_params_whole b0 b1 b2 b3 b4 p cs rest h, decodeAnswer, lowByteSum_eq_sum8]
  split
  · rfl
  · split <;> rfl

/-- Settles O11: a short input has no candidate frame, and a long enough one is parsed as a whole frame. -/
theorem decodeParsesOneFrame : Obligations.DecodeParsesOneFrame := by
  constructor
  · intro b s hshort
    rw [exec_decode, parseFrame_none ((candidate_none_iff b).mpr hshort), finish_error, raise_eq_answered]
  · intro b0 b1 b2 b3 b4 p cs rest s hlength
    rw [exec_decode, finish_parseFrame_whole _ _ _ _ _ _ _ _ _ hlength]

/-- DECODE takes a frame with the protocol's header and the right checksum byte (R92, R96). -/
theorem exec_decode_unsummed {c x : Byte} {p : List Byte} (r : List Byte) (s : State) (hfits : p.length ≤ 255)
    (hsum : x = lowByteSum (unsummed c p)) :
    exec (.decode (unsummed c p ++ [x] ++ r)) s = .next (answered .ok (.decoded ⟨0x00#8, c, p⟩ r) s) := by
  rw [exec_decode, parseFrame_params_unsummed hfits, if_neg (not_not_intro hsum), finish_ok, returnOk_eq_answered]

/-- DECODE takes what ENCODE emits (R97). -/
theorem exec_decode_frameBytes (c : Byte) {p : List Byte} (r : List Byte) (s : State) (hfits : p.length ≤ 255) :
    exec (.decode (frameBytes c p ++ r)) s = .next (answered .ok (.decoded ⟨0x00#8, c, p⟩ r) s) :=
  exec_decode_unsummed r s hfits rfl

/-- Settles O13: ENCODE emits the frame's bytes, and these DECODE takes back. -/
theorem decodeInvertsEncodeOnTheWire : Obligations.DecodeInvertsEncodeOnTheWire := by
  intro c p r s u hfits
  exact ⟨frameBytes c p, _, encodeBuildsTheFrame c p s hfits, rfl, exec_decode_frameBytes c r u hfits⟩

/-! ## What the checksum detects (R90) -/

theorem unsummed_length (c : Byte) (p : List Byte) : (unsummed c p).length = 5 + p.length := by
  rw [unsummed, List.length_append]; rfl

/-- A byte sum sees the change of one byte. -/
theorem sum8_set_ne {l : List Byte} {j : Nat} {x y : Byte} (hj : l[j]? = some x) (hne : y ≠ x) :
    sum8 (l.set j y) ≠ sum8 l := by
  induction l generalizing j with
  | nil => simp at hj
  | cons a as ih =>
    cases j with
    | zero =>
      obtain rfl : a = x := by simpa using hj
      simpa using hne
    | succ k =>
      have hk := ih (j := k) (by simpa using hj)
      simpa using hk

/-- Changing the command or a payload byte gives the unsummed bytes of another command and payload of the same length. -/
theorem unsummed_set (c : Byte) (p : List Byte) {j : Nat} (y : Byte) (h3 : 3 ≤ j) (h4 : j ≠ 4) :
    ∃ c' p', p'.length = p.length ∧ (unsummed c p).set j y = unsummed c' p' := by
  match j with
  | 3 => exact ⟨y, p, rfl, rfl⟩
  | k + 5 => exact ⟨c, p.set k y, by simp, by simp [unsummed]⟩

/-- Changing a sync byte or the address of a frame that DECODE would take gives a HeaderError (R92, D6). -/
theorem exec_decode_set_header (c : Byte) {p : List Byte} (r : List Byte) (s : State) {j : Nat} {x y : Byte}
    (hfits : p.length ≤ 255) (hj3 : j < 3) (hj : (frameBytes c p)[j]? = some x) (hne : y ≠ x) :
    ∃ h n, exec (.decode ((frameBytes c p).set j y ++ r)) s =
      .next (answered (.error (.headerError h n)) .nothing s) := by
  have hlength : p.length = (BitVec.ofNat 8 p.length : Byte).toNat := (lengthByte_toNat hfits).symm
  have hparse (b0 b1 b2 : Byte) (h : b0 ≠ Config.params.syncHi ∨ b1 ≠ Config.params.syncLo ∨ b2 ≠ 0x00#8) :
      ∃ h n, exec (.decode ([b0, b1, b2, c, BitVec.ofNat 8 p.length] ++ p ++ [lowByteSum (unsummed c p)] ++ r)) s =
        .next (answered (.error (.headerError h n)) .nothing s) := by
    rw [exec_decode, finish_parseFrame_whole _ _ _ _ _ _ _ _ _ hlength, decodeAnswer, if_pos h]
    exact ⟨_, _, rfl⟩
  match j with
  | 0 =>
    obtain rfl : Config.params.syncHi = x := Option.some.inj hj
    exact hparse y Config.params.syncLo 0x00#8 (.inl hne)
  | 1 =>
    obtain rfl : Config.params.syncLo = x := Option.some.inj hj
    exact hparse Config.params.syncHi y 0x00#8 (.inr (.inl hne))
  | 2 =>
    obtain rfl : 0x00#8 = x := Option.some.inj hj
    exact hparse Config.params.syncHi Config.params.syncLo y (.inr (.inr hne))

/-- Changing the command, a payload byte or the checksum byte gives a ChecksumError (R90, R94). -/
theorem exec_decode_set_summed (c : Byte) {p : List Byte} (r : List Byte) (s : State) {j : Nat} {x y : Byte}
    (hfits : p.length ≤ 255) (hj3 : 3 ≤ j) (hj4 : j ≠ 4) (hj : (frameBytes c p)[j]? = some x) (hne : y ≠ x) :
    ∃ a b n, exec (.decode ((frameBytes c p).set j y ++ r)) s =
      .next (answered (.error (.checksumError a b n)) .nothing s) := by
  rw [frameBytes] at hj ⊢
  by_cases hbody : j < (unsummed c p).length
  · obtain ⟨c', p', hlength, hset⟩ := unsummed_set c p y hj3 hj4
    rw [List.getElem?_append_left hbody] at hj
    rw [List.set_append_left _ _ hbody, hset]
    have hsum : lowByteSum (unsummed c p) ≠ lowByteSum (unsummed c' p') := by
      rw [lowByteSum_eq_sum8, lowByteSum_eq_sum8, ← hset]
      exact (sum8_set_ne hj hne).symm
    obtain ⟨n, herror⟩ := checksumMismatchIsChecksumError c' p' _ r s (hlength ▸ hfits) hsum
    exact ⟨_, _, n, herror⟩
  · obtain ⟨rfl, rfl⟩ : j = (unsummed c p).length ∧ lowByteSum (unsummed c p) = x := by
      have hlt := (List.getElem?_eq_some_iff.mp hj).1
      simp only [List.length_append, List.length_singleton] at hlt
      have heq : j = (unsummed c p).length := by omega
      exact ⟨heq, by simpa [heq] using hj⟩
    rw [List.set_append_right _ _ le_rfl, Nat.sub_self, List.set_cons_zero]
    obtain ⟨n, herror⟩ := checksumMismatchIsChecksumError c p y r s hfits hne
    exact ⟨_, _, n, herror⟩

/-- Flipping a bit changes the byte. -/
theorem xor_bit_ne (x : Byte) (k : Fin 8) : x ^^^ (1#8 <<< k.val) ≠ x := by
  have hbit : (1#8 <<< k.val) ≠ 0#8 := by revert k; decide
  intro h
  exact hbit (by simpa using congrArg (x ^^^ ·) h)

/-- Settles O14: a changed header byte fails the header check, any other changed byte the checksum. -/
theorem singleBitFlipIsDetected : Obligations.SingleBitFlipIsDetected := by
  intro c p r s j k x hfits hj4 hj
  by_cases hj3 : j < 3
  · obtain ⟨h, n, herror⟩ := exec_decode_set_header c r s hfits hj3 hj (xor_bit_ne x k)
    exact ⟨_, herror, (if_pos hj3).symm⟩
  · obtain ⟨a, b, n, herror⟩ := exec_decode_set_summed c r s hfits (not_lt.mp hj3) hj4 hj (xor_bit_ne x k)
    exact ⟨_, herror, (if_neg hj3).symm⟩

/-- Settles O15: the byte sum of the payload does not depend on its order. -/
theorem reorderedPayloadIsNotDetected : Obligations.ReorderedPayloadIsNotDetected := by
  intro c p q r s hfits hperm
  have hsum : lowByteSum (unsummed c p) = lowByteSum (unsummed c q) := by
    simp only [lowByteSum_eq_sum8, unsummed, sum8_append, hperm.length_eq, sum8_perm hperm]
  exact exec_decode_unsummed r s (hperm.length_eq ▸ hfits) hsum

/-! ## CLASSIFY and MATCH_RESPONSE -/

/-- CLASSIFY's code is R103's table by shape. -/
theorem classifyCode_params (f : Frame) : classifyCode Config.params f = classOf f := by
  obtain ⟨a, c, p⟩ := f
  by_cases hc : c.toNat < 128
  · simp [classifyCode, classOf, hc, operationFailed]
  · match p with
    | [] => simp [classifyCode, classOf, operationFailed]
    | [e] => simp [classifyCode, classOf, hc, not_lt.mp hc]
    | _ :: _ :: _ => simp [classifyCode, classOf, hc, not_lt.mp hc]

/-- MATCH_RESPONSE's error code by shape (R104, D11). -/
theorem matchCode_params (q : Byte) (f : Frame) :
    matchCode Config.params q f =
      if 128 ≤ q.toNat ∧ f.payload.length = 1 ∧ 128 ≤ f.cmd.toNat then 0x00#8 else classOf f := by
  simp [matchCode, classifyCode_params, and_assoc]

/-- MATCH_RESPONSE's meaning is its check, answered without a change of any register (R104). -/
theorem exec_matchResponse (q : Byte) (f : Frame) (s : State) :
    exec (.matchResponse q f) s = .next (finish (checkResponse Config.params q f) s) := rfl

/-- MATCH_RESPONSE answers by the error code and the command (R104). -/
theorem exec_matchResponse_eq (q : Byte) (f : Frame) (s : State) :
    exec (.matchResponse q f) s = .next (
      if matchCode Config.params q f ≠ 0x00#8 then
        answered (.error (.protocolError .errorCode (matchCode Config.params q f))) .nothing s
      else if f.cmd ≠ q ||| 0x80#8 then answered (.error (.protocolError .commandMismatch f.cmd)) .nothing s
      else answered .ok .nothing s) := by
  rw [exec_matchResponse, checkResponse, responseCode_params]
  split
  · rfl
  · split <;> rfl

/-- For a request code with bit 7 clear, the error code is CLASSIFY's (R104). -/
theorem matchCode_of_request {q : Byte} (h : q.toNat < 128) (f : Frame) : matchCode Config.params q f = classOf f := by
  rw [matchCode_params, if_neg (by omega)]

/-- Settles O16: the code is read off the frame's shape. -/
theorem classifyFollowsTheShape : Obligations.ClassifyFollowsTheShape := by
  intro f s _
  rw [exec_classify, classifyCode_params]

/-- Settles O17: the answer by error code and command, with the error code by shape. -/
theorem matchResponseChecksCodeThenCommand : Obligations.MatchResponseChecksCodeThenCommand := by
  intro q f s e _ he
  rw [exec_matchResponse_eq, matchCode_params, ← he]

/-- MATCH_RESPONSE answers OK exactly when the error code is 0x00 and the command is the request's with bit 7 set (R104). -/
theorem exec_matchResponse_ok_iff (q : Byte) (f : Frame) (s : State) :
    exec (.matchResponse q f) s = .next (answered .ok .nothing s) ↔
      matchCode Config.params q f = 0x00#8 ∧ f.cmd = q ||| 0x80#8 := by
  rw [exec_matchResponse_eq]
  by_cases hcode : matchCode Config.params q f = 0x00#8
  · by_cases hcmd : f.cmd = q ||| 0x80#8
    · simp [hcode, hcmd]
    · simp [hcode, hcmd, answered]
  · simp [hcode, answered]

/-- The shapes of a response that CLASSIFY reads as success (R103). -/
theorem classOf_eq_zero_iff {f : Frame} (h : 128 ≤ f.cmd.toNat) :
    classOf f = 0x00#8 ↔ f.payload = [0x00#8] ∨ 2 ≤ f.payload.length := by
  obtain ⟨a, c, p⟩ := f
  have hc : ¬ c.toNat < 128 := not_lt.mpr h
  match p with
  | [] => simp [classOf, hc]
  | [e] => simp [classOf, hc]
  | _ :: _ :: _ => simp [classOf, hc]

/-- Settles O18: MATCH_RESPONSE's two tests at the request code 0x02, the first read by shape. -/
theorem keyboardAcknowledgementShape : Obligations.KeyboardAcknowledgementShape := by
  intro f s _
  have hcode : 0x02#8 ||| 0x80#8 = 0x82#8 := rfl
  rw [exec_matchResponse_ok_iff, matchCode_of_request (by decide), hcode, and_comm]
  refine and_congr_right fun hcmd => classOf_eq_zero_iff ?_
  rw [hcmd]; decide

/-- Settles O19: the row is MATCH_RESPONSE on a frame with its own response code, which leaves the payload's shape. -/
theorem wireResponsesAreReadAgainstTheirRequest : Obligations.WireResponsesAreReadAgainstTheirRequest := by
  intro i q p s hreads _
  have hcmd : ¬ (q ||| 0x80#8).toNat < 128 := by
    have := responseCode_toNat hreads.code_lt
    rw [responseCode_params] at this
    omega
  rw [hreads.exec_eq, exec_matchResponse_eq, matchCode_of_request hreads.code_lt]
  generalize q ||| 0x80#8 = c at hcmd
  match p with
  | [] => simp [classOf]
  | [e] => by_cases he : e = 0x00#8 <;> simp [classOf, hcmd, he]
  | _ :: _ :: _ => simp [classOf, hcmd]

/-- Settles O20: DECODE takes the frame of the response code, and the row is MATCH_RESPONSE on it. -/
theorem responseIsDecodeThenMatch : Obligations.ResponseIsDecodeThenMatch := by
  intro i q p r s hreads hfits
  exact ⟨_, exec_decode_frameBytes _ r s hfits, (hreads.exec_eq s).symm⟩

end Sys2Proof.Form
end

section
/-!
PROOFS. The key operations: the modifier bit (R112, R113), the frame of the whole keyboard state (R118, R121), code 0x00 (R124),
duplicates (R116), repetition (R48), and what a key operation leaves as it was (R40, R125).
-/

namespace Sys2Proof.Form

open Sys2Proof.Machine Sys2Proof.Safety

/-! ## Modifier codes -/

/-- A code that is no key is a modifier code (R112). -/
theorem isModifier_of_not_isKey {c : Byte} (h : ¬ IsKey c) : isModifier Config.params c = true := by
  rw [isModifier_params_iff]
  simp only [IsKey, not_or, not_lt] at h
  exact h

theorem modifierCode_toNat (k : Fin 8) : (modifierCode k).toNat = Config.params.modBase.toNat + k.val := by
  have hbase := modBase_toNat Config.params
  have hoffset := Config.params.modOffset.isLt
  have hk := k.isLt
  rw [modifierCode, BitVec.toNat_add, BitVec.toNat_ofNat]
  omega

theorem isModifier_modifierCode (k : Fin 8) : isModifier Config.params (modifierCode k) = true := by
  have hk := k.isLt
  rw [isModifier_params_iff, modifierCode_toNat]
  omega

theorem modifierBit_modifierCode (k : Fin 8) : modifierBit Config.params (modifierCode k) = 1#8 <<< k.val := by
  rw [modifierBit, modifierCode_toNat, Nat.add_sub_cancel_left]

theorem getLsbD_bit (k j : Fin 8) : (1#8 <<< k.val).getLsbD j.val = decide (j = k) := by
  revert k j; decide

/-- A press sets or flips the modifier's own bit (R113). -/
theorem pressModifier_getLsbD (k j : Fin 8) (m : Byte) :
    (pressModifier Config.params (modifierCode k) m).getLsbD j.val =
      if j = k then (if Config.params.modUpdate = .setClear then true else !m.getLsbD j.val) else m.getLsbD j.val := by
  rw [pressModifier, modifierBit_modifierCode]
  cases Config.params.modUpdate with
  | setClear =>
    rw [BitVec.getLsbD_or, getLsbD_bit]
    by_cases hjk : j = k <;> simp [hjk]
  | xor =>
    rw [BitVec.getLsbD_xor, getLsbD_bit]
    by_cases hjk : j = k <;> simp [hjk]

/-- A release clears or flips the modifier's own bit (R113). -/
theorem releaseModifier_getLsbD (k j : Fin 8) (m : Byte) :
    (releaseModifier Config.params (modifierCode k) m).getLsbD j.val =
      if j = k then (if Config.params.modUpdate = .setClear then false else !m.getLsbD j.val) else m.getLsbD j.val := by
  rw [releaseModifier, modifierBit_modifierCode]
  cases Config.params.modUpdate with
  | setClear =>
    rw [BitVec.getLsbD_and, BitVec.getLsbD_not, getLsbD_bit]
    by_cases hjk : j = k <;> simp [hjk]
  | xor =>
    rw [BitVec.getLsbD_xor, getLsbD_bit]
    by_cases hjk : j = k <;> simp [hjk]

/-- Settles O21: KEY_DOWN of a modifier code writes KB_MOD by `pressModifier` and no slot. -/
theorem modifierPressChangesOneBit : Obligations.ModifierPressChangesOneBit := by
  intro k s
  have hpress := pressKey_modifier (s := s) (isModifier_modifierCode k)
  refine ⟨_, exec_keyDown _ s, fun j => ?_, ?_⟩
  · rw [keyDownState_kbMod, hpress, pressModifier_getLsbD]
  · rw [keyDownState_kbSlot, hpress]

/-- Settles O22: KEY_UP of a modifier code writes KB_MOD by `releaseModifier` and no slot. -/
theorem modifierReleaseChangesOneBit : Obligations.ModifierReleaseChangesOneBit := by
  intro k s
  have hrelease := releaseKey_modifier (s := s) (isModifier_modifierCode k)
  refine ⟨_, exec_keyUp _ s, fun j => ?_, ?_⟩
  · rw [keyUpState_kbMod, hrelease, releaseModifier_getLsbD]
  · rw [keyUpState_kbSlot, hrelease]

/-! ## The frame of the keyboard state -/

theorem frameBytes_length (c : Byte) (p : List Byte) : (frameBytes c p).length = 6 + p.length := by
  rw [frameBytes, List.length_append, unsummed_length, List.length_singleton]; omega

/-- The keyboard-state frame in the statements' form (R67, R118). -/
theorem kbFrame_eq_frameBytes (s : State) :
    kbFrame Config.params s = frameBytes 0x02#8
      [s.kbMod, 0x00#8, s.kbSlot[0], s.kbSlot[1], s.kbSlot[2], s.kbSlot[3], s.kbSlot[4], s.kbSlot[5]] := by
  rw [kbFrame_params, wire_params_eq_frameBytes, kbSlot_toList]

/-- Settles O27: the frame emitted is that of the registers after the update. -/
theorem keyOperationsEmitTheSnapshot : Obligations.KeyOperationsEmitTheSnapshot := by
  intro c s i hi
  rcases hi with rfl | rfl
  · exact ⟨_, _, exec_keyDown c s, kbFrame_eq_frameBytes _, kbFrame_length _, keyDownState_tx .., keyDownState_response ..⟩
  · exact ⟨_, _, exec_keyUp c s, kbFrame_eq_frameBytes _, kbFrame_length _, keyUpState_tx .., keyUpState_response ..⟩

/-! ## Code 0x00 -/

theorem pressScan_zero (l : List Byte) : pressScan 0x00#8 l = l := by
  induction l with
  | nil => rfl
  | cons x xs ih => by_cases hx : x = 0x00#8 <;> simp [pressScan, hx, ih]

theorem releaseScan_zero (l : List Byte) : releaseScan 0x00#8 l = l := by
  induction l with
  | nil => rfl
  | cons x xs ih => by_cases hx : x = 0x00#8 <;> simp [releaseScan, hx, ih]

/-- A press of 0x00 changes no register (R124). -/
theorem pressKey_zero (s : State) : pressKey Config.params 0x00#8 s = s := by
  have hslots : pressSlots Config.params 0x00#8 s.kbSlot = s.kbSlot :=
    Vector.toList_inj.mp (by rw [pressSlots_toList, pressScan_zero])
  rw [pressKey_key (isModifier_zero _), hslots]

/-- A release of 0x00 changes no register (R124). -/
theorem releaseKey_zero (s : State) : releaseKey Config.params 0x00#8 s = s := by
  have hslots : releaseSlots Config.params 0x00#8 s.kbSlot = s.kbSlot :=
    Vector.toList_inj.mp (by rw [releaseSlots_toList, releaseScan_zero])
  rw [releaseKey_key (isModifier_zero _), hslots]

/-- Settles O28: the update does nothing, so the frame emitted is that of the old registers. -/
theorem codeZeroOnlyEmits : Obligations.CodeZeroOnlyEmits := by
  intro s i hi
  rcases hi with rfl | rfl
  · rw [exec_keyDown, keyDownState, pressKey_zero, sendKbState, kbFrame_eq_frameBytes, emitOk_eq_sent]
  · rw [exec_keyUp, keyUpState, releaseKey_zero, sendKbState, kbFrame_eq_frameBytes, emitOk_eq_sent]

/-! ## Duplicates -/

/-- The slots after a press of a key, in index order (R114). -/
theorem keyDownState_slots {c : Byte} (hkey : IsKey c) (s : State) :
    (keyDownState Config.params c s).kbSlot.toList = pressScan c s.kbSlot.toList := by
  rw [keyDownState_kbSlot_of_isKey hkey, pressSlots_toList]

/-- The slots after a release of a key, in index order (R117). -/
theorem keyUpState_slots {c : Byte} (hkey : IsKey c) (s : State) :
    (keyUpState Config.params c s).kbSlot.toList = releaseScan c s.kbSlot.toList := by
  rw [keyUpState_kbSlot_of_isKey hkey, releaseSlots_toList]

/-- Settles O26: the scans, run on six slots one operation after the other. -/
theorem repressAfterGapDuplicatesTheCode : Obligations.RepressAfterGapDuplicatesTheCode := by
  intro a b s ha hb ha0 hb0 hab hempty
  have h0 : s.kbSlot.toList = [0x00#8, 0x00#8, 0x00#8, 0x00#8, 0x00#8, 0x00#8] := by rw [hempty]; rfl
  refine ⟨_, _, _, _, _, exec_keyDown a s, exec_keyDown b _, exec_keyUp a _, exec_keyDown b _, exec_keyUp b _, ?_, ?_⟩
  · rw [keyDownState_slots hb, keyUpState_slots ha, keyDownState_slots hb, keyDownState_slots ha, h0]
    simp [pressScan, releaseScan, ha0, hab, hab.symm]
  · refine Vector.toList_inj.mp ?_
    rw [keyUpState_slots hb, keyDownState_slots hb, keyUpState_slots ha, keyDownState_slots hb, keyDownState_slots ha, h0]
    simp [pressScan, releaseScan, ha0, hb0.symm, hab, hab.symm]

/-! ## Repetition, and the two readings of toggle -/

theorem pressScan_idem (c : Byte) (l : List Byte) : pressScan c (pressScan c l) = pressScan c l := by
  induction l with
  | nil => rfl
  | cons x xs ih =>
    by_cases hx : x = 0x00#8 ∨ x = c
    · simp [pressScan, hx]
    · simp [pressScan, hx, ih]

/-- A scan that is idempotent on lists is so on the slots in use. -/
theorem scanSlots_idem (P : Config.Params) {scan : List Byte → List Byte} (v : Vector Byte Config.nSlots)
    (h : ∀ l, (scan l).length = l.length) (hidem : ∀ l, scan (scan l) = scan l) :
    scanSlots P scan (scanSlots P scan v h) h = scanSlots P scan v h := by
  have hused : (scan (v.toList.take P.nSlots)).length = P.nSlots := by
    have hbound := P.nSlots.isLt
    rw [h, List.length_take, Vector.length_toList]
    omega
  refine Vector.toList_inj.mp ?_
  rw [scanSlots_toList, scanSlots_toList, List.take_left' hused, List.drop_left' hused, hidem]

/-- Under set_clear a modifier press repeated changes nothing more (R113). -/
theorem pressModifier_idem {P : Config.Params} (h : P.modUpdate = .setClear) (c m : Byte) :
    pressModifier P c (pressModifier P c m) = pressModifier P c m := by
  simp only [pressModifier, h, BitVec.or_assoc, BitVec.or_self]

/-- Under xor a modifier press repeated is undone (R113). -/
theorem pressModifier_undone {P : Config.Params} (h : P.modUpdate = .xor) (c m : Byte) :
    pressModifier P c (pressModifier P c m) = m := by
  simp only [pressModifier, h, BitVec.xor_assoc, BitVec.xor_self, BitVec.xor_zero]

/-- Settles O30: the slot scan and the setting of a bit are idempotent, the flip of a bit is its own inverse. -/
theorem repeatedPressIsIdempotentUnlessXor : Obligations.RepeatedPressIsIdempotentUnlessXor := by
  intro P c s
  constructor
  · intro h
    cases hmod : isModifier P c with
    | true =>
      have hupdate : P.modUpdate = .setClear := h.resolve_right (by simp [hmod])
      simp only [pressKey_modifier hmod, pressModifier_idem hupdate]
    | false =>
      simp only [pressKey_key hmod, pressSlots, scanSlots_idem P _ _ (pressScan_idem c)]
  · intro hupdate hmod
    simp only [pressKey_modifier hmod, pressModifier_undone hupdate]

/-- On bits that are all clear, setting and flipping are the same. -/
theorem or_eq_xor_of_and_eq_zero {m b : Byte} (h : m &&& b = 0#8) : m ||| b = m ^^^ b := by
  ext i hi
  have hbit : (m[i] && b[i]) = false := by simpa using congrArg (·[i]) h
  rw [BitVec.getElem_or, BitVec.getElem_xor]
  revert hbit
  cases m[i] <;> cases b[i] <;> simp

/-- Setting bits that are all clear and clearing them again gives the old byte. -/
theorem or_and_not_of_and_eq_zero {m b : Byte} (h : m &&& b = 0#8) : (m ||| b) &&& ~~~b = m := by
  ext i hi
  have hbit : (m[i] && b[i]) = false := by simpa using congrArg (·[i]) h
  rw [BitVec.getElem_and, BitVec.getElem_or, BitVec.getElem_not]
  revert hbit
  cases m[i] <;> cases b[i] <;> simp

/-- Settles O31: on a clear bit, set and flip agree, and so do the clear and the flip that undo them. -/
theorem toggleReadingsAgreeFromReleased : Obligations.ToggleReadingsAgreeFromReleased := by
  intro P c s hmod hclear
  have hmodSet : isModifier { P with modUpdate := .setClear } c = true := hmod
  have hmodXor : isModifier { P with modUpdate := .xor } c = true := hmod
  have hpress : s.kbMod ||| modifierBit P c = s.kbMod ^^^ modifierBit P c := or_eq_xor_of_and_eq_zero hclear
  have hsetClear : (s.kbMod ||| modifierBit P c) &&& ~~~modifierBit P c = s.kbMod := or_and_not_of_and_eq_zero hclear
  have hxorXor : s.kbMod ^^^ modifierBit P c ^^^ modifierBit P c = s.kbMod := by
    rw [BitVec.xor_assoc, BitVec.xor_self, BitVec.xor_zero]
  simp only [pressKey_modifier hmodSet, pressKey_modifier hmodXor, releaseKey_modifier hmodSet, releaseKey_modifier hmodXor]
  refine ⟨congrArg (fun m => { s with kbMod := m }) hpress, ?_, ?_⟩
  · exact congrArg (fun m => { s with kbMod := m }) hsetClear
  · exact congrArg (fun m => { s with kbMod := m }) hxorXor

/-! ## What a key operation leaves as it was -/

/-- Settles O29: the update writes KB_MOD or the slots, and the emission no register. -/
theorem keyOperationsFrame : Obligations.KeyOperationsFrame := by
  intro c s t i hi hexec
  rcases hi with rfl | rfl
  · obtain rfl := Host.Outcome.next.inj hexec
    refine ⟨by simp [SameReceiver, SameRxData], by simp, fun hkey => keyDownState_kbMod_of_isKey hkey s, fun hkey => ?_⟩
    rw [keyDownState_kbSlot, pressKey_modifier (isModifier_of_not_isKey hkey)]
  · obtain rfl := Host.Outcome.next.inj hexec
    refine ⟨by simp [SameReceiver, SameRxData], by simp, fun hkey => keyUpState_kbMod_of_isKey hkey s, fun hkey => ?_⟩
    rw [keyUpState_kbSlot, releaseKey_modifier (isModifier_of_not_isKey hkey)]

/-! ## The slots under a key operation (R24) -/

/-- A press takes no slot from one code directly to another (R24). -/
theorem keyDownState_slotsMoveThroughEmpty (c : Byte) (s : State) :
    SlotsMoveThroughEmpty s (keyDownState Config.params c s) := by
  intro i
  cases hmod : isModifier Config.params c with
  | true => exact .inl (by rw [keyDownState_kbSlot, pressKey_modifier hmod])
  | false =>
    rw [keyDownState_kbSlot, pressKey_key hmod]
    rcases pressSlots_cases c s with ⟨k, ⟨hopen, -⟩, hpress⟩ | ⟨-, hpress⟩
    · by_cases hik : k = i
      · subst hik
        rcases hopen with hzero | hsame
        · exact .inr (.inl hzero)
        · exact .inl (by rw [hpress, hsame]; exact Vector.getElem_set_self k.isLt)
      · have hne : k.val ≠ i.val := fun h => hik (Fin.ext h)
        rw [hpress]
        exact .inl (Vector.getElem_set_ne k.isLt i.isLt hne)
    · exact .inl (by rw [hpress])

/-- A release takes no slot from one code directly to another (R24). -/
theorem keyUpState_slotsMoveThroughEmpty (c : Byte) (s : State) :
    SlotsMoveThroughEmpty s (keyUpState Config.params c s) := by
  intro i
  cases hmod : isModifier Config.params c with
  | true => exact .inl (by rw [keyUpState_kbSlot, releaseKey_modifier hmod])
  | false =>
    rw [keyUpState_kbSlot, releaseKey_key hmod, releaseSlots_getElem]
    split
    · exact .inr (.inr rfl)
    · exact .inl rfl

/-- A press puts at most its own code into a slot. -/
theorem mem_pressScan {c x : Byte} {l : List Byte} (h : x ∈ pressScan c l) : x = c ∨ x ∈ l := by
  rcases pressScan_cases c l with ⟨i, _, -, -, -, hscan⟩ | ⟨-, hscan⟩
  · rw [hscan] at h
    exact (List.mem_or_eq_of_mem_set h).symm
  · exact .inr (hscan ▸ h)

/-- A release puts at most 0x00 into a slot. -/
theorem mem_releaseScan {c x : Byte} {l : List Byte} (h : x ∈ releaseScan c l) : x = 0x00#8 ∨ x ∈ l := by
  rw [releaseScan_eq_map] at h
  obtain ⟨y, hy, rfl⟩ := List.mem_map.mp h
  split
  · exact .inl rfl
  · exact .inr hy

/-- A press keeps modifier codes out of the slots (R24). -/
theorem keyDownState_slotsHoldNoModifier {s : State} (c : Byte) (h : SlotsHoldNoModifier Config.params s) :
    SlotsHoldNoModifier Config.params (keyDownState Config.params c s) := by
  intro x hx
  cases hmod : isModifier Config.params c with
  | true => exact h x (by simpa [pressKey_modifier hmod] using hx)
  | false =>
    rw [keyDownState_kbSlot, pressKey_key hmod, pressSlots_toList] at hx
    rcases mem_pressScan hx with rfl | hold
    · exact hmod
    · exact h x hold

/-- A release keeps modifier codes out of the slots (R24). -/
theorem keyUpState_slotsHoldNoModifier {s : State} (c : Byte) (h : SlotsHoldNoModifier Config.params s) :
    SlotsHoldNoModifier Config.params (keyUpState Config.params c s) := by
  intro x hx
  cases hmod : isModifier Config.params c with
  | true => exact h x (by simpa [releaseKey_modifier hmod] using hx)
  | false =>
    rw [keyUpState_kbSlot, releaseKey_key hmod, releaseSlots_toList] at hx
    rcases mem_releaseScan hx with rfl | hold
    · exact isModifier_zero _
    · exact h x hold

/-! ## Key operations from the same keyboard registers -/

theorem kbFrame_congr {s u : State} (h : SameKeyboard s u) : kbFrame Config.params u = kbFrame Config.params s := by
  obtain ⟨hmod, hslot⟩ := h
  rw [kbFrame_params, kbFrame_params, hmod, hslot]

theorem pressKey_congr {s u : State} (c : Byte) (h : SameKeyboard s u) :
    SameKeyboard (pressKey Config.params c s) (pressKey Config.params c u) := by
  obtain ⟨hmod, hslot⟩ := h
  unfold pressKey
  split <;> simp [SameKeyboard, hmod, hslot]

theorem releaseKey_congr {s u : State} (c : Byte) (h : SameKeyboard s u) :
    SameKeyboard (releaseKey Config.params c s) (releaseKey Config.params c u) := by
  obtain ⟨hmod, hslot⟩ := h
  unfold releaseKey
  split <;> simp [SameKeyboard, hmod, hslot]

/-- Emitting the keyboard frame answers the same from the same keyboard registers. -/
theorem sendKbState_congr {s u : State} (h : SameKeyboard s u) :
    (sendKbState Config.params s).response = (sendKbState Config.params u).response ∧
      SameKeyboard (sendKbState Config.params s) (sendKbState Config.params u) := by
  refine ⟨?_, h⟩
  simp only [sendKbState, emitOk_response, kbFrame_congr h]

/-- A key operation's answer and its keyboard registers depend on the keyboard registers alone (R40). -/
theorem exec_key_congr {c : Byte} {i : Instr} {s t u v : State} (hsame : SameKeyboard s u)
    (hi : i = .keyDown c ∨ i = .keyUp c) (hs : exec i s = .next t) (hu : exec i u = .next v) :
    t.response = v.response ∧ SameKeyboard t v := by
  rcases hi with rfl | rfl <;> obtain rfl := Host.Outcome.next.inj hs <;> obtain rfl := Host.Outcome.next.inj hu
  · exact sendKbState_congr (pressKey_congr c hsame)
  · exact sendKbState_congr (releaseKey_congr c hsame)

end Sys2Proof.Form
end

section
/-!
PROOFS. The byte-serial receiver: what RX_BYTE does in each phase (R98), RX_END (R99), what both leave as it was (R40), the bytes the
registers hold (R29, R32), and the equivalence with DECODE (R100).
-/

namespace Sys2Proof.Form

open Sys2Proof.Machine Sys2Proof.Safety

/-! ## RX_BYTE, phase by phase -/

/-- RX_BYTE's meaning is the receiver's step (R98). -/
theorem exec_rxByte (b : Byte) (s : State) : exec (.rxByte b) s = rxStep Config.params b s := rfl

/-- RX_END's meaning is R99's. -/
theorem exec_rxEnd (s : State) : exec .rxEnd s = execRxEnd s := rfl

/-- Settles O33: the receiver's step in each of the five header phases. -/
theorem rxByteTakesTheHeader : Obligations.RxByteTakesTheHeader := by
  intro b s
  refine ⟨?_, ?_, ?_, ?_, ?_⟩ <;> intro hphase <;> rw [exec_rxByte, rxStep, hphase] <;> rfl

/-- RX_BYTE in phase PAY, with RX_IDX an index of RX_BUF (R98). -/
theorem exec_rxByte_pay {b : Byte} {s : State} (hphase : s.rxPhase = .pay) (hidx : s.rxIdx.toNat < 255) :
    exec (.rxByte b) s = .next (answered .ok .nothing
      { s with
        rxSum := s.rxSum + b
        rxBuf := s.rxBuf.set s.rxIdx.toNat b hidx
        rxIdx := s.rxIdx + 1#8
        rxPhase := if s.rxIdx + 1#8 = s.rxLen then .csum else .pay }) := by
  rw [exec_rxByte, rxStep, hphase]
  exact rxPayload_next (P := Config.params) hidx

/-- RX_BYTE on the checksum byte (R98). -/
theorem exec_rxByte_csum (b : Byte) {s : State} (hphase : s.rxPhase = .csum) :
    exec (.rxByte b) s = .next (finish (rxVerdict Config.params b s) (rxIdle s)) := by
  rw [exec_rxByte, rxStep, hphase]

/-- R32's bound on RX_IDX makes it an index of RX_BUF. -/
theorem rxIdx_lt_of_rxCounts {s : State} (h : RxCounts s) (hphase : s.rxPhase = .pay) : s.rxIdx.toNat < 255 := by
  have hlt := h.1 hphase
  have hlen := s.rxLen.isLt
  omega

/-- RX_IDX counts up without wrapping below the buffer's end. -/
theorem byte_add_one_toNat {i : Byte} (h : i.toNat < 255) : (i + 1#8).toNat = i.toNat + 1 := by
  rw [BitVec.toNat_add, BitVec.toNat_ofNat]
  omega

theorem byte_add_one_eq_iff {i l : Byte} (h : i.toNat < 255) : i + 1#8 = l ↔ i.toNat + 1 = l.toNat := by
  rw [← BitVec.toNat_inj, byte_add_one_toNat h]

/-- Settles O34: under R32's bound the byte is stored, and RX_IDX advances without wrapping. -/
theorem rxByteStoresThePayload : Obligations.RxByteStoresThePayload := by
  intro b s hphase hcounts
  have hidx := rxIdx_lt_of_rxCounts hcounts hphase
  refine ⟨_, exec_rxByte_pay hphase hidx, fun j => ?_, rfl, byte_add_one_toNat hidx, ?_, rfl, rfl, rfl, rfl,
    ⟨rfl, rfl⟩, rfl, rfl, rfl⟩
  · have hset : (s.rxBuf.set s.rxIdx.toNat b hidx)[j.val] = if s.rxIdx.toNat = j.val then b else s.rxBuf[j.val] :=
      Vector.getElem_set ..
    exact hset.trans (if_congr eq_comm rfl rfl)
  · simp only [answered, byte_add_one_eq_iff hidx]

/-- Settles O35: the verdict of R98, raised or returned with the receiver idle. -/
theorem rxByteJudgesTheChecksum : Obligations.RxByteJudgesTheChecksum := by
  intro b s hphase
  rw [exec_rxByte_csum b hphase, rxVerdict_params]
  split
  · rfl
  · split <;> rfl

/-- Settles O41: the receiver stops only past the buffer's end, which is RX_IDX = 255. -/
theorem rxByteFaultsOnlyPastTheBuffer : Obligations.RxByteFaultsOnlyPastTheBuffer := by
  intro b s
  constructor
  · intro hfault
    rcases rxStep_next_or_fault Config.params b s with ⟨t, hnext⟩ | ⟨hphase, hidx, -⟩
    · rw [exec_rxByte, hnext] at hfault
      cases hfault
    · have hlt := s.rxIdx.isLt
      rw [Config.params_maxPayload] at hidx
      exact ⟨hphase, BitVec.eq_of_toNat_eq (show s.rxIdx.toNat = 255 by omega)⟩
  · rintro ⟨hphase, hidx⟩
    rw [exec_rxByte, rxStep, hphase]
    exact rxPayload_fault (by rw [hidx]; decide)

/-! ## RX_END -/

/-- RX_END in the middle of a frame, in the statements' form (R99). -/
theorem exec_rxEnd_cut {s : State} (h : s.rxPhase ≠ .h0) :
    exec .rxEnd s = .next (answered (.error (.truncated (rxCount s))) .nothing { s with rxPhase := .h0 }) :=
  execRxEnd_cut h

/-- Settles O36: RX_END reports the count of bytes taken, which each phase gives. -/
theorem rxEndReportsTheCutFrame : Obligations.RxEndReportsTheCutFrame := by
  intro s
  refine ⟨execRxEnd_idle, fun n hn => ?_⟩
  obtain ⟨hcut, hcount⟩ : s.rxPhase ≠ .h0 ∧ rxCount s = n := by
    rcases hn with ⟨hphase, rfl⟩ | ⟨hphase, rfl⟩ | ⟨hphase, rfl⟩ | ⟨hphase, rfl⟩ | ⟨hphase, rfl⟩ | ⟨hphase, rfl⟩ <;>
      simp [hphase, rxCount]
  rw [exec_rxEnd_cut hcut, hcount]

/-- Settles O40: DECODE has no candidate frame in the empty input, and RX_END at H0 has nothing to end. -/
theorem emptyInputTellsTheDecodersApart : Obligations.EmptyInputTellsTheDecodersApart :=
  fun _ hphase => ⟨rfl, execRxEnd_idle hphase⟩

/-! ## What the receiver's operations leave as it was -/

/-- RX_END writes no register but RX_PHASE, and emits nothing (R99). -/
theorem exec_rxEnd_frame {s t : State} (h : exec .rxEnd s = .next t) :
    SameKeyboard s t ∧ SameRxData s t ∧ t.host = s.host ∧ t.tx = s.tx := by
  by_cases hphase : s.rxPhase = .h0
  · rw [exec_rxEnd, execRxEnd_idle hphase] at h
    obtain rfl := Host.Outcome.next.inj h
    simp [SameKeyboard, SameRxData]
  · rw [exec_rxEnd, execRxEnd_cut hphase] at h
    obtain rfl := Host.Outcome.next.inj h
    simp [SameKeyboard, SameRxData]

/-- Settles O37: each alternative of the receiver's step writes the registers its phase names. -/
theorem receiverOperationsFrame : Obligations.ReceiverOperationsFrame := by
  intro s t
  refine ⟨exec_rxEnd_frame, fun b h => ?_⟩
  rcases rxStep_cases h with ⟨hphase, rfl⟩ | ⟨hphase, rfl⟩ | ⟨hphase, rfl⟩ | ⟨hphase, rfl⟩ | ⟨hphase, rfl⟩ |
    ⟨hphase, _, rfl⟩ | ⟨hphase, rfl⟩ <;> simp [SameKeyboard, hphase]

/-! ## The bytes the registers hold (R29, R32) -/

/-- Storing a byte after the first `n` gives the first `n` and that byte. -/
theorem take_succ_set {l : List Byte} {n : Nat} (b : Byte) (h : n < l.length) :
    (l.set n b).take (n + 1) = l.take n ++ [b] := by
  rw [List.take_succ_eq_append_getElem (by simpa using h), List.take_set_of_le (Nat.le_refl n), List.getElem_set_self]

/-- A sequence of at least five bytes is a header and the rest. -/
theorem exists_header_of_length {bs : List Byte} {n : Nat} (h : bs.length = 5 + n) :
    ∃ b0 b1 b2 b3 b4 p, bs = [b0, b1, b2, b3, b4] ++ p ∧ p.length = n := by
  match bs with
  | b0 :: b1 :: b2 :: b3 :: b4 :: p =>
    refine ⟨b0, b1, b2, b3, b4, p, rfl, ?_⟩
    simp only [List.length_cons] at h
    omega
  | [] | [_] | [_, _] | [_, _, _] | [_, _, _, _] =>
    simp only [List.length_cons, List.length_nil] at h
    omega

/-- The bytes a whole header and a partly received payload leave in the registers (R29, R32). -/
theorem rxHolds_header_iff {P : Config.Params} (b0 b1 b2 b3 b4 : Byte) (p : List Byte) (s : State) :
    RxHolds P ([b0, b1, b2, b3, b4] ++ p) s ↔
      5 + p.length = rxCount s ∧ RxCounts s ∧ s.rxSum = sum8 ([b0, b1, b2, b3, b4] ++ p) ∧
        s.rxSyncOk = (decide (b0 = P.syncHi) && decide (b1 = P.syncLo)) ∧
        s.rxAddr = b2 ∧ s.rxCmd = b3 ∧ s.rxLen = b4 ∧ p = s.rxBuf.toList.take s.rxIdx.toNat := by
  have hlength : ([b0, b1, b2, b3, b4] ++ p).length = 5 + p.length := by rw [List.length_append]; rfl
  simp only [RxHolds, hlength]
  simp [syncMatches, and_assoc]

/-- A receiver that expects the first sync byte holds no byte. -/
theorem rxHolds_nil {P : Config.Params} {s : State} (h : s.rxPhase = .h0) : RxHolds P [] s := by
  simp [RxHolds, rxCount, RxCounts, h]

/-- One more payload byte (R98). -/
theorem rxHolds_pay {bs : List Byte} {s : State} (b : Byte) (h : RxHolds Config.params bs s) (hphase : s.rxPhase = .pay) :
    ∃ t, exec (.rxByte b) s = .next t ∧ RxHolds Config.params (bs ++ [b]) t := by
  have hlength : bs.length = 5 + s.rxIdx.toNat := by simpa [rxCount, hphase] using h.1
  obtain ⟨b0, b1, b2, b3, b4, p, rfl, hp⟩ := exists_header_of_length hlength
  obtain ⟨-, hcounts, hsum, hsync, haddr, hcmd, hlen, hbuf⟩ := (rxHolds_header_iff ..).mp h
  have hidx := rxIdx_lt_of_rxCounts hcounts hphase
  have hlt := hcounts.1 hphase
  have hidx' := byte_add_one_toNat hidx
  refine ⟨_, exec_rxByte_pay hphase hidx, ?_⟩
  rw [List.append_assoc]
  refine (rxHolds_header_iff ..).mpr ⟨?_, ?_, ?_, hsync, haddr, hcmd, hlen, ?_⟩
  · rw [List.length_append, List.length_singleton, hp]
    by_cases hlast : s.rxIdx + 1#8 = s.rxLen
    · simp only [answered, rxCount, if_pos hlast]
      rw [← hlast, hidx']
    · simp only [answered, rxCount, if_neg hlast, hidx']
  · by_cases hlast : s.rxIdx + 1#8 = s.rxLen
    · simp [RxCounts, answered, hlast]
    · have hbelow : s.rxIdx.toNat + 1 < s.rxLen.toNat := by
        rw [byte_add_one_eq_iff hidx] at hlast
        omega
      simp only [RxCounts, answered, if_neg hlast, hidx']
      exact ⟨fun _ => hbelow, nofun⟩
  · rw [← List.append_assoc, sum8_append, ← hsum]
    simp [answered]
  · simp only [answered, hidx', Vector.toList_set]
    rw [take_succ_set b (by simpa using hidx), ← hbuf]

/-- Settles O38: in a header phase the byte goes into its register, in PAY into the buffer, and always into the sum. -/
theorem receiverHoldsTheBytesOfTheFrame : Obligations.ReceiverHoldsTheBytesOfTheFrame := by
  intro bs b s h hcsum
  obtain ⟨toH1, toH2, toH3, toH4, toPay⟩ := rxByteTakesTheHeader b s
  obtain ⟨hlength, -, hregs, haddr, hcmd, -⟩ := id h
  rw [rxCount] at hlength
  cases hphase : s.rxPhase <;> rw [hphase] at hlength
  case h0 =>
    obtain rfl := List.length_eq_zero_iff.mp hlength
    refine ⟨_, toH1 hphase, ?_⟩
    simp [RxHolds, RxCounts, rxCount, answered, syncMatches]
  case h1 =>
    obtain ⟨b0, rfl⟩ := List.length_eq_one_iff.mp hlength
    obtain ⟨hsum, hsync⟩ := hregs (by simp)
    refine ⟨_, toH2 hphase, ?_⟩
    simp [RxHolds, RxCounts, rxCount, answered, syncMatches, hsum, hsync]
  case h2 =>
    obtain ⟨b0, b1, rfl⟩ := List.length_eq_two.mp hlength
    obtain ⟨hsum, hsync⟩ := hregs (by simp)
    refine ⟨_, toH3 hphase, ?_⟩
    simp [RxHolds, RxCounts, rxCount, answered, syncMatches, hsum, hsync, BitVec.add_assoc]
  case h3 =>
    obtain ⟨b0, b1, b2, rfl⟩ := List.length_eq_three.mp hlength
    obtain ⟨hsum, hsync⟩ := hregs (by simp)
    refine ⟨_, toH4 hphase, ?_⟩
    simp [RxHolds, RxCounts, rxCount, answered, syncMatches, hsum, hsync, haddr _ rfl, BitVec.add_assoc]
  case h4 =>
    obtain ⟨b0, b1, b2, b3, rfl⟩ : ∃ b0 b1 b2 b3, bs = [b0, b1, b2, b3] := by
      match bs, hlength with
      | [b0, b1, b2, b3], _ => exact ⟨b0, b1, b2, b3, rfl⟩
    obtain ⟨hsum, hsync⟩ := hregs (by simp)
    refine ⟨_, toPay hphase, (rxHolds_header_iff b0 b1 b2 b3 b [] _).mpr ?_⟩
    by_cases hb : b = 0x00#8
    · simp [RxCounts, rxCount, answered, syncMatches, hsum, hsync, haddr _ rfl, hcmd _ rfl, hb]
    · have hpos : 0 < b.toNat := Nat.pos_of_ne_zero fun h => hb (BitVec.eq_of_toNat_eq h)
      simp [RxCounts, rxCount, answered, syncMatches, hsum, hsync, haddr _ rfl, hcmd _ rfl, hb, hpos, BitVec.add_assoc]
  case pay => exact rxHolds_pay b h hphase
  case csum => exact absurd hphase hcsum

/-! ## The two decoders (R100) -/

/-- Before the checksum byte RX_BYTE answers OK with nothing (R98). -/
theorem exec_rxByte_response {b : Byte} {s t : State} (h : exec (.rxByte b) s = .next t) (hphase : s.rxPhase ≠ .csum) :
    t.response = some ⟨.ok, .nothing, []⟩ := by
  rcases rxStep_cases h with ⟨-, rfl⟩ | ⟨-, rfl⟩ | ⟨-, rfl⟩ | ⟨-, rfl⟩ | ⟨-, rfl⟩ | ⟨-, _, rfl⟩ | ⟨hcsum, -⟩
  case inr.inr.inr.inr.inr.inr => exact absurd hcsum hphase
  all_goals rfl

/-- Under R32 no more bytes have been taken than the header and the payload have. -/
theorem rxCount_le {s : State} (h : RxCounts s) : rxCount s ≤ 5 + s.rxLen.toNat := by
  unfold rxCount
  split
  case h_6 hphase => have hlt := h.1 hphase; omega
  all_goals omega

/-- A partly received frame has no candidate frame yet (R91, R32). -/
theorem candidate_none_of_rxHolds {P : Config.Params} {bs : List Byte} {s : State} (h : RxHolds P bs s) :
    candidate bs = none := by
  obtain ⟨hlength, hcounts, -, -, -, hlen, -⟩ := h
  rw [candidate_none_iff]
  by_cases hshort : bs.length < 5
  · exact .inl hshort
  · have h4 : bs[4]? = some bs[4] := List.getElem?_eq_getElem (by omega)
    have hle := rxCount_le hcounts
    rw [hlen _ h4] at hle
    exact .inr ⟨bs[4], h4, by omega⟩

/-- DECODE's answer and the answer that ended the feeding of the bytes `bs` agree: the same Frame and rest, or the same error with the
same counts (R100; only DECODE records the header bytes, log 15). -/
def SameAnswer (bs : List Byte) (decoded : Option Response) (r : Response) (rest : List Byte) : Prop :=
  (∃ f, decoded = some ⟨.ok, .decoded f rest, []⟩ ∧ r = ⟨.ok, .received f, []⟩) ∨
    (∃ n, decoded = some ⟨.error (.truncated n), .nothing, []⟩ ∧ r = ⟨.error (.truncated n), .nothing, []⟩ ∧
      n = bs.length ∧ rest = []) ∨
    (∃ h n, decoded = some ⟨.error (.headerError (some h) n), .nothing, []⟩ ∧
      r = ⟨.error (.headerError none n), .nothing, []⟩ ∧ rest = bs.drop n) ∨
    (∃ x y n, decoded = some ⟨.error (.checksumError x y n), .nothing, []⟩ ∧
      r = ⟨.error (.checksumError x y n), .nothing, []⟩ ∧ rest = bs.drop n)

/-- On the checksum byte the receiver answers what DECODE answers on the bytes held, this byte and a rest (R92, R98). -/
theorem csum_sameAnswer {bs : List Byte} {s : State} (b : Byte) (rest : List Byte) (u : State)
    (h : RxHolds Config.params bs s) (hphase : s.rxPhase = .csum) :
    ∃ t r, exec (.rxByte b) s = .next t ∧ t.rxPhase = .h0 ∧ t.response = some r ∧ r ≠ ⟨.ok, .nothing, []⟩ ∧
      SameAnswer (bs ++ b :: rest) (finish (parseFrame Config.params (bs ++ b :: rest)) u).response r rest := by
  have hlength : bs.length = 5 + s.rxLen.toNat := by simpa [rxCount, hphase] using h.1
  obtain ⟨b0, b1, b2, b3, b4, p, rfl, hp⟩ := exists_header_of_length hlength
  obtain ⟨-, ⟨-, hcount⟩, hsum, hsync, rfl, rfl, rfl, hbuf⟩ := (rxHolds_header_iff ..).mp h
  rw [hcount hphase] at hbuf
  have hrest : rest = ([b0, b1, s.rxAddr, s.rxCmd, s.rxLen] ++ p ++ b :: rest).drop (6 + s.rxLen.toNat) := by
    rw [List.append_cons, List.drop_left' (by simp; omega)]
  have hheader : (b0 ≠ Config.params.syncHi ∨ b1 ≠ Config.params.syncLo ∨ s.rxAddr ≠ 0x00#8) ↔
      (s.rxSyncOk = false ∨ s.rxAddr ≠ 0x00#8) := by
    rw [hsync, Bool.and_eq_false_iff, decide_eq_false_iff_not, decide_eq_false_iff_not, or_assoc]
  have hparse := parseFrame_params_whole b0 b1 s.rxAddr s.rxCmd s.rxLen p b rest hp
  rw [List.append_assoc _ [b], List.singleton_append, ← hsum] at hparse
  have hjudge := rxByteJudgesTheChecksum b s hphase
  by_cases hbad : s.rxSyncOk = false ∨ s.rxAddr ≠ 0x00#8
  · rw [if_pos (hheader.mpr hbad)] at hparse
    rw [if_pos hbad] at hjudge
    exact ⟨_, _, hjudge, rfl, rfl, by simp, .inr (.inr (.inl ⟨_, _, by rw [hparse]; rfl, rfl, hrest⟩))⟩
  · rw [if_neg (hheader.not.mpr hbad)] at hparse
    rw [if_neg hbad] at hjudge
    by_cases hmismatch : b ≠ s.rxSum
    · rw [if_pos hmismatch] at hparse hjudge
      exact ⟨_, _, hjudge, rfl, rfl, by simp, .inr (.inr (.inr ⟨_, _, _, by rw [hparse]; rfl, rfl, hrest⟩))⟩
    · rw [if_neg hmismatch] at hparse hjudge
      rw [← hbuf] at hjudge
      exact ⟨_, _, hjudge, rfl, rfl, by simp, .inl ⟨_, by rw [hparse]; rfl, rfl⟩⟩

/-- RX_END on a partly received frame answers what DECODE answers on its bytes (R95, R99). -/
theorem rxEnd_sameAnswer {bs : List Byte} {s : State} (u : State) (h : RxHolds Config.params bs s) (hne : bs ≠ []) :
    ∃ t r, exec .rxEnd s = .next t ∧ t.rxPhase = .h0 ∧ t.response = some r ∧
      SameAnswer bs (finish (parseFrame Config.params bs) u).response r [] := by
  have hcut : s.rxPhase ≠ .h0 := by
    intro hphase
    have hzero : bs.length = 0 := by simpa [rxCount, hphase] using h.1
    exact hne (List.length_eq_zero_iff.mp hzero)
  refine ⟨_, _, exec_rxEnd_cut hcut, rfl, rfl, .inr (.inl ⟨rxCount s, ?_, rfl, h.1.symm, rfl⟩)⟩
  rw [parseFrame_none (candidate_none_of_rxHolds h), finish_error, raise_response, h.1]

/-- Feeding the rest of a frame whose first bytes `pre` the receiver holds ends in DECODE's answer on all of them (R100). -/
theorem feed_sameAnswer (bs : List Byte) {pre : List Byte} {s : State} (u : State) (h : RxHolds Config.params pre s)
    (hne : pre ++ bs ≠ []) :
    ∃ r rest t, feed bs s = some (r, rest, t) ∧ t.rxPhase = .h0 ∧
      SameAnswer (pre ++ bs) (finish (parseFrame Config.params (pre ++ bs)) u).response r rest := by
  induction bs generalizing pre s with
  | nil =>
    rw [List.append_nil] at hne ⊢
    obtain ⟨t, r, hexec, hphase, hresponse, hsame⟩ := rxEnd_sameAnswer u h hne
    exact ⟨r, [], t, by simp [feed, hexec, hresponse], hphase, hsame⟩
  | cons b bs ih =>
    by_cases hcsum : s.rxPhase = .csum
    · obtain ⟨t, r, hexec, hphase, hresponse, hends, hsame⟩ := csum_sameAnswer b bs u h hcsum
      exact ⟨r, bs, t, by simp [feed, hexec, hresponse, hends], hphase, hsame⟩
    · obtain ⟨t, hexec, hholds⟩ := receiverHoldsTheBytesOfTheFrame pre b s h hcsum
      have hresponse := exec_rxByte_response hexec hcsum
      have hfeed : feed (b :: bs) s = feed bs t := by simp [feed, hexec, hresponse]
      rw [hfeed, ← List.singleton_append, ← List.append_assoc]
      exact ih hholds (by simp)

/-- Settles O39: at H0 the receiver holds no byte, so feeding the whole sequence ends in DECODE's answer on it. -/
theorem byteSerialDecodingEqualsDecode : Obligations.ByteSerialDecodingEqualsDecode := by
  intro bs s u hphase hne
  obtain ⟨r, rest, t, hfeed, hidle, hsame⟩ := feed_sameAnswer bs u (rxHolds_nil hphase) hne
  exact ⟨r, rest, t, _, hfeed, hidle, exec_decode bs u, hsame⟩

end Sys2Proof.Form
end

section
/-!
PROOFS. What every instruction leaves as it was (R40, R48), what it can answer (R70, R146), and that the answers do not depend on what the
operation does not read.
-/

namespace Sys2Proof.Form

open Sys2Proof.Machine Sys2Proof.Safety

/-! ## The codec operations and the wire commands: no register, no dependence on the state -/

/-- An operation that only reads writes no register and emits nothing (R40). -/
theorem readsOnly_frame {i : Instr} {s t : State} (hreads : ReadsOnly i) (h : exec i s = .next t) :
    SameKeyboard s t ∧ SameReceiver s t ∧ t.host = s.host ∧ t.tx = s.tx := by
  obtain ⟨o, hexec⟩ := ReadsOnly.exec_eq hreads
  obtain rfl := Host.Outcome.next.inj ((hexec s).symm.trans h)
  simp [SameKeyboard, SameReceiver, SameRxData]

/-- An operation that builds a frame from a payload writes no register (R40). -/
theorem buildsFrame_frame {i : Instr} {c : Byte} {p : List Byte} {s t : State} (hbuilds : BuildsFrame i c p)
    (h : exec i s = .next t) : SameKeyboard s t ∧ SameReceiver s t ∧ t.host = s.host := by
  obtain rfl := Host.Outcome.next.inj ((hbuilds.exec_eq s).symm.trans h)
  simp [SameKeyboard, SameReceiver, SameRxData]

/-- Settles O42: the frames of the two families. -/
theorem codecOperationsWriteNoRegister : Obligations.CodecOperationsWriteNoRegister :=
  fun _ _ _ h => ⟨fun hreads => readsOnly_frame hreads h, fun _ _ hbuilds => buildsFrame_frame hbuilds h⟩

/-- An outcome is answered the same from any two states. -/
theorem finish_response_congr (o : Except Error Result) (s u : State) :
    (finish o s).response = (finish o u).response ∧ (finish o s).response ≠ none := by
  cases o <;> simp

/-- ENCODE's body answers the same from any two states (R48). -/
theorem sendFrame_response_congr (c : Byte) (p : List Byte) (s u : State) :
    (sendFrame Config.params c p s).response = (sendFrame Config.params c p u).response ∧
      (sendFrame Config.params c p s).response ≠ none := by
  by_cases hfits : p.length ≤ 255
  · simp [sendFrame_params_fits hfits]
  · simp [sendFrame_params_tooLong (not_le.mp hfits)]

/-- Settles O43: the outcome of the first family and the body of the second read no register. -/
theorem codecOperationsIgnoreTheState : Obligations.CodecOperationsIgnoreTheState := by
  intro i s u hi
  rcases hi with hreads | ⟨c, p, hbuilds⟩
  · obtain ⟨o, hexec⟩ := ReadsOnly.exec_eq hreads
    exact ⟨_, _, hexec s, hexec u, finish_response_congr o s u⟩
  · exact ⟨_, _, hbuilds.exec_eq s, hbuilds.exec_eq u, sendFrame_response_congr c p s u⟩

/-! ## The receiver does not read the keyboard registers or the interface -/

/-- The state with the receiver registers of `s` and everything else of `k`. -/
def withReceiverOf (s k : State) : State :=
  { s with kbMod := k.kbMod, kbSlot := k.kbSlot, host := k.host, response := k.response, tx := k.tx }

/-- A state is determined by its receiver registers and the rest. -/
theorem eq_withReceiverOf {s u : State} (h : SameReceiver s u) : u = withReceiverOf s u := by
  obtain ⟨hphase, hsum, hsync, haddr, hcmd, hlen, hidx, hbuf⟩ := h
  cases s; cases u
  simp_all [withReceiverOf]

/-- RX_BYTE's answer and receiver registers are the same whatever the rest of the state is (R40). -/
theorem exec_rxByte_congr {b : Byte} {s k t v : State} (hs : exec (.rxByte b) s = .next t)
    (hk : exec (.rxByte b) (withReceiverOf s k) = .next v) : t.response = v.response ∧ SameReceiver t v := by
  rcases rxStep_cases hs with ⟨hphase, rfl⟩ | ⟨hphase, rfl⟩ | ⟨hphase, rfl⟩ | ⟨hphase, rfl⟩ | ⟨hphase, rfl⟩ |
    ⟨hphase, hidx, rfl⟩ | ⟨hphase, rfl⟩
  case inr.inr.inr.inr.inr.inl =>
    rw [exec_rxByte_pay (s := withReceiverOf s k) hphase hidx] at hk
    obtain rfl := Host.Outcome.next.inj hk
    exact ⟨rfl, rfl, rfl, rfl, rfl, rfl, rfl, rfl, rfl⟩
  case inr.inr.inr.inr.inr.inr =>
    rw [exec_rxByte_csum b (s := withReceiverOf s k) hphase] at hk
    obtain rfl := Host.Outcome.next.inj hk
    exact ⟨(finish_response_congr _ _ _).1, by simp [SameReceiver, SameRxData, withReceiverOf]⟩
  all_goals
    rw [exec_rxByte, rxStep, show (withReceiverOf s k).rxPhase = _ from hphase] at hk
    obtain rfl := Host.Outcome.next.inj hk
    exact ⟨rfl, rfl, rfl, rfl, rfl, rfl, rfl, rfl, rfl⟩

/-- RX_END's answer and receiver registers are the same whatever the rest of the state is (R40). -/
theorem exec_rxEnd_congr {s k t v : State} (hs : exec .rxEnd s = .next t)
    (hk : exec .rxEnd (withReceiverOf s k) = .next v) : t.response = v.response ∧ SameReceiver t v := by
  by_cases hphase : s.rxPhase = .h0
  · obtain rfl := Host.Outcome.next.inj ((execRxEnd_idle hphase).symm.trans hs)
    obtain rfl := Host.Outcome.next.inj ((execRxEnd_idle (s := withReceiverOf s k) hphase).symm.trans hk)
    exact ⟨rfl, rfl, rfl, rfl, rfl, rfl, rfl, rfl, rfl⟩
  · obtain rfl := Host.Outcome.next.inj ((execRxEnd_cut hphase).symm.trans hs)
    obtain rfl := Host.Outcome.next.inj ((execRxEnd_cut (s := withReceiverOf s k) hphase).symm.trans hk)
    exact ⟨rfl, rfl, rfl, rfl, rfl, rfl, rfl, rfl, rfl⟩

/-- Settles O44: each family's answer is a function of its own registers. -/
theorem keyboardAndReceiverDoNotInterfere : Obligations.KeyboardAndReceiverDoNotInterfere := by
  intro s u t v c
  refine ⟨fun hsame i hi => exec_key_congr hsame hi, fun hsame i hi hs hu => ?_⟩
  rw [eq_withReceiverOf hsame] at hu
  rcases hi with rfl | rfl
  · exact exec_rxByte_congr hs hu
  · exact exec_rxEnd_congr hs hu

/-! ## What an instruction can answer (R70, R146) -/

/-- What each operation can answer: its results (R70) and its errors by number (R146). -/
inductive Answers : Instr → Response → Prop
  | frame {i : Instr} (c : Byte) {p : List Byte} (hsends : sendsFrame i = true) (hfits : p.length ≤ 255) :
      Answers i ⟨.ok, .emitted (frameBytes c p), frameBytes c p⟩
  | tooLong {i : Instr} {c : Byte} {p : List Byte} {e : Error} (hbuilds : BuildsFrame i c p)
      (hsends : sendsFrame i = false) (hcode : statusCode (.error e) = 1) : Answers i ⟨.error e, .nothing, []⟩
  | decoded (b : List Byte) (f : Frame) (rest : List Byte) : Answers (.decode b) ⟨.ok, .decoded f rest, []⟩
  | decodeError (b : List Byte) {e : Error}
      (hcode : statusCode (.error e) = 2 ∨ statusCode (.error e) = 3 ∨ statusCode (.error e) = 4) :
      Answers (.decode b) ⟨.error e, .nothing, []⟩
  | classified (f : Frame) (c : Byte) : Answers (.classify f) ⟨.ok, .code c, []⟩
  | matched {i : Instr} {q : Byte} {f : Frame} (hchecks : checkedResponse i = some (q, f)) :
      Answers i ⟨.ok, .nothing, []⟩
  | matchError {i : Instr} {q : Byte} {f : Frame} {e : Error} (hchecks : checkedResponse i = some (q, f))
      (hcode : statusCode (.error e) = 5) : Answers i ⟨.error e, .nothing, []⟩
  | taken (b : Byte) : Answers (.rxByte b) ⟨.ok, .nothing, []⟩
  | received (b : Byte) (f : Frame) : Answers (.rxByte b) ⟨.ok, .received f, []⟩
  | receiveError (b : Byte) {e : Error} (hcode : statusCode (.error e) = 3 ∨ statusCode (.error e) = 4) :
      Answers (.rxByte b) ⟨.error e, .nothing, []⟩
  | idleEnd : Answers .rxEnd ⟨.ok, .nothing, []⟩
  | cutEnd {e : Error} (hcode : statusCode (.error e) = 2) : Answers .rxEnd ⟨.error e, .nothing, []⟩

/-- An operation that only reads is DECODE, CLASSIFY or one that checks a response. -/
theorem readsOnly_cases {i : Instr} (h : ReadsOnly i) :
    (∃ b, i = .decode b) ∨ (∃ f, i = .classify f) ∨ ∃ q f, checkedResponse i = some (q, f) := by
  rcases h with hdecode | hclassify | ⟨q, f, rfl⟩ | ⟨p, rfl⟩ | ⟨p, rfl⟩ | ⟨p, rfl⟩ | ⟨p, rfl⟩ | ⟨p, rfl⟩ | ⟨p, rfl⟩
  case inl => exact .inl hdecode
  case inr.inl => exact .inr (.inl hclassify)
  all_goals exact .inr (.inr ⟨_, _, rfl⟩)

/-- An operation that checks `f` against `c` is MATCH_RESPONSE of them, or the response row that stands for it (log 11). -/
theorem checkedResponse_eq_some {i : Instr} {c : Byte} {f : Frame} (h : checkedResponse i = some (c, f)) :
    i = .matchResponse c f ∨ ∃ p, ReadsResponse i c p ∧ f = ⟨0x00#8, c ||| 0x80#8, p⟩ := by
  cases i <;> simp only [checkedResponse, Option.some.injEq, Prod.mk.injEq, reduceCtorEq] at h <;>
    obtain ⟨rfl, rfl⟩ := h
  case matchResponse => exact .inl rfl
  all_goals exact .inr ⟨_, by simp [ReadsResponse], rfl⟩

/-- An operation that checks `f` against `q` does what MATCH_RESPONSE of them does (log 11). -/
theorem exec_of_checkedResponse {i : Instr} {q : Byte} {f : Frame} (h : checkedResponse i = some (q, f)) (s : State) :
    exec i s = exec (.matchResponse q f) s := by
  rcases checkedResponse_eq_some h with rfl | ⟨p, hreads, rfl⟩
  · rfl
  · exact hreads.exec_eq s

/-- What DECODE can answer (R92). -/
theorem decode_answers (b : List Byte) (s : State) :
    ∃ a, (finish (parseFrame Config.params b) s).response = some a ∧ Answers (.decode b) a := by
  unfold parseFrame
  split
  · exact ⟨_, rfl, .decodeError b (.inl rfl)⟩
  · split
    · exact ⟨_, rfl, .decodeError b (.inr (.inl rfl))⟩
    · split
      · exact ⟨_, rfl, .decodeError b (.inr (.inr rfl))⟩
      · exact ⟨_, rfl, .decoded b _ _⟩

/-- A check of a response is answered by one status, whatever the state is (R104). -/
theorem exec_matchResponse_status (q : Byte) (f : Frame) :
    ∃ st, (∀ u, exec (.matchResponse q f) u = .next (answered st .nothing u)) ∧
      (st = .ok ∨ ∃ e, st = .error e ∧ statusCode (.error e) = 5) := by
  simp only [exec_matchResponse_eq]
  split
  · exact ⟨_, fun _ => rfl, .inr ⟨_, rfl, rfl⟩⟩
  · split
    · exact ⟨_, fun _ => rfl, .inr ⟨_, rfl, rfl⟩⟩
    · exact ⟨_, fun _ => rfl, .inl rfl⟩

/-- What RX_BYTE can answer (R98). -/
theorem rxByte_answers {b : Byte} {s t : State} (h : exec (.rxByte b) s = .next t) :
    ∃ a, t.response = some a ∧ Answers (.rxByte b) a := by
  by_cases hphase : s.rxPhase = .csum
  · obtain rfl := Host.Outcome.next.inj ((rxByteJudgesTheChecksum b s hphase).symm.trans h)
    split
    · exact ⟨_, rfl, .receiveError b (.inl rfl)⟩
    · split
      · exact ⟨_, rfl, .receiveError b (.inr rfl)⟩
      · exact ⟨_, rfl, .received b _⟩
  · exact ⟨_, exec_rxByte_response h hphase, .taken b⟩

/-- Whether a frame is sent for a payload (R45, D4). -/
theorem BuildsFrame.sendsFrame_eq {i : Instr} {c : Byte} {p : List Byte} (h : BuildsFrame i c p) :
    sendsFrame i = decide (p.length ≤ 255) := by
  rcases h with rfl | ⟨rfl, -⟩ | ⟨rfl, -⟩ | ⟨rfl, -⟩ | ⟨rfl, -⟩ | ⟨rfl, -⟩ | ⟨rfl, -⟩ <;> rfl

/-- An operation that only reads sends no frame. -/
theorem readsOnly_sendsFrame {i : Instr} (h : ReadsOnly i) : sendsFrame i = false := by
  rcases h with ⟨b, rfl⟩ | ⟨f, rfl⟩ | ⟨q, f, rfl⟩ | ⟨p, rfl⟩ | ⟨p, rfl⟩ | ⟨p, rfl⟩ | ⟨p, rfl⟩ | ⟨p, rfl⟩ | ⟨p, rfl⟩ <;> rfl

/-- An operation that checks a response sends no frame. -/
theorem checkedResponse_sendsFrame {i : Instr} {q : Byte} {f : Frame} (h : checkedResponse i = some (q, f)) :
    sendsFrame i = false := by
  rcases checkedResponse_eq_some h with rfl | ⟨p, hreads, -⟩
  · rfl
  · rcases hreads with ⟨rfl, -⟩ | ⟨rfl, -⟩ | ⟨rfl, -⟩ | ⟨rfl, -⟩ | ⟨rfl, -⟩ | ⟨rfl, -⟩ <;> rfl

/-- What an operation that checks a response can answer (R104). -/
theorem checkedResponse_answers {i : Instr} {q : Byte} {f : Frame} {s t : State}
    (hchecks : checkedResponse i = some (q, f)) (h : exec i s = .next t) : ∃ a, t.response = some a ∧ Answers i a := by
  obtain ⟨st, hanswered, hst⟩ := exec_matchResponse_status q f
  obtain rfl := Host.Outcome.next.inj ((hanswered s).symm.trans ((exec_of_checkedResponse hchecks s).symm.trans h))
  rcases hst with rfl | ⟨e, rfl, hcode⟩
  · exact ⟨_, rfl, .matched hchecks⟩
  · exact ⟨_, rfl, .matchError hchecks hcode⟩

/-- What RX_END can answer (R99). -/
theorem rxEnd_answers {s t : State} (h : exec .rxEnd s = .next t) : ∃ a, t.response = some a ∧ Answers .rxEnd a := by
  by_cases hphase : s.rxPhase = .h0
  · obtain rfl := Host.Outcome.next.inj ((execRxEnd_idle hphase).symm.trans h)
    exact ⟨_, rfl, .idleEnd⟩
  · obtain rfl := Host.Outcome.next.inj ((execRxEnd_cut hphase).symm.trans h)
    exact ⟨_, rfl, .cutEnd rfl⟩

/-- An operation that only reads answers what the table says. -/
theorem readsOnly_answers {i : Instr} {s t : State} (hreads : ReadsOnly i) (h : exec i s = .next t) :
    ∃ a, t.response = some a ∧ Answers i a := by
  rcases readsOnly_cases hreads with ⟨b, rfl⟩ | ⟨f, rfl⟩ | ⟨q, f, hchecks⟩
  · obtain rfl := Host.Outcome.next.inj h
    exact decode_answers b s
  · obtain rfl := Host.Outcome.next.inj h
    exact ⟨_, rfl, .classified f _⟩
  · exact checkedResponse_answers hchecks h

/-- An operation that sends no frame answers with no emitted bytes. -/
theorem Answers.emitted_eq_nil {i : Instr} {a : Response} (h : Answers i a) (hsends : sendsFrame i = false) :
    a.emitted = [] := by
  cases h with
  | frame c hsends' => exact absurd (hsends'.symm.trans hsends) (by decide)
  | _ => rfl

/-- Whatever an instruction answers is in the table, and the bytes it says it emitted go onto the stream (R37, R47). -/
theorem exec_answers {i : Instr} {s t : State} (h : exec i s = .next t) :
    ∃ a, t.response = some a ∧ Answers i a ∧ t.tx = s.tx ++ a.emitted := by
  have silent (hsends : sendsFrame i = false) (htx : t.tx = s.tx) (hanswers : ∃ a, t.response = some a ∧ Answers i a) :
      ∃ a, t.response = some a ∧ Answers i a ∧ t.tx = s.tx ++ a.emitted := by
    obtain ⟨a, hresponse, ha⟩ := hanswers
    exact ⟨a, hresponse, ha, by rw [ha.emitted_eq_nil hsends, List.append_nil, htx]⟩
  rcases instr_cases i with hreads | ⟨c, p, hbuilds⟩ | ⟨c, hkey⟩ | ⟨b, rfl⟩ | rfl
  · obtain ⟨-, -, -, htx⟩ := readsOnly_frame hreads h
    exact silent (readsOnly_sendsFrame hreads) htx (readsOnly_answers hreads h)
  · by_cases hfits : p.length ≤ 255
    · obtain rfl := Host.Outcome.next.inj ((wireRequestsEmitTheirFrames i c p s hbuilds hfits).symm.trans h)
      exact ⟨_, rfl, .frame c (hbuilds.sendsFrame_eq.trans (decide_eq_true hfits)) hfits, rfl⟩
    · have hsends : sendsFrame i = false := hbuilds.sendsFrame_eq.trans (decide_eq_false hfits)
      obtain rfl := Host.Outcome.next.inj ((longPayloadsAreRejected i c p s hbuilds (not_le.mp hfits)).symm.trans h)
      exact silent hsends rfl ⟨_, rfl, .tooLong hbuilds hsends rfl⟩
  · obtain ⟨t', w, hexec, hw, -, htx, hresponse⟩ := keyOperationsEmitTheSnapshot c s i hkey
    obtain rfl := Host.Outcome.next.inj (hexec.symm.trans h)
    have hsends : sendsFrame i = true := by rcases hkey with rfl | rfl <;> rfl
    exact ⟨_, hresponse, hw ▸ .frame _ hsends (by simp), htx⟩
  · obtain ⟨-, -, htx, -⟩ := (receiverOperationsFrame s t).2 b h
    exact silent rfl htx (rxByte_answers h)
  · obtain ⟨-, -, -, htx⟩ := exec_rxEnd_frame h
    exact silent rfl htx (rxEnd_answers h)

/-- Settles O49: every way of the table to end appends what the answer says. -/
theorem emittedBytesExtendTheTransmitStream : Obligations.EmittedBytesExtendTheTransmitStream := by
  intro i s t h
  obtain ⟨a, hresponse, -, htx⟩ := exec_answers h
  exact ⟨a, hresponse, htx⟩

/-! ## Errors -/

/-- An instruction's answer is in the table (R70, R146). -/
theorem answers_of_response {i : Instr} {s t : State} {a : Response} (h : exec i s = .next t)
    (hresponse : t.response = some a) : Answers i a ∧ t.tx = s.tx ++ a.emitted := by
  obtain ⟨a', hresponse', hanswers, htx⟩ := exec_answers h
  obtain rfl := Option.some.inj (hresponse'.symm.trans hresponse)
  exact ⟨hanswers, htx⟩

/-- Settles O46: the rows of the table that answer an error. -/
theorem errorsComeFromTheirOperations : Obligations.ErrorsComeFromTheirOperations := by
  intro i s t e h hresponse
  obtain ⟨hanswers, -⟩ := answers_of_response h hresponse
  cases hanswers with
  | tooLong hbuilds _ hcode =>
    have hsource : ∃ c p, BuildsFrame i c p := ⟨_, _, hbuilds⟩
    simpa [hcode] using hsource
  | decodeError b hcode => rcases hcode with hcode | hcode | hcode <;> simp [hcode]
  | matchError hchecks hcode =>
    have hsource : (∃ q f, i = .matchResponse q f) ∨ ∃ q p, ReadsResponse i q p :=
      (checkedResponse_eq_some hchecks).imp (fun h => ⟨_, _, h⟩) fun ⟨p, hreads, _⟩ => ⟨_, p, hreads⟩
    simpa [hcode] using hsource
  | receiveError b hcode => rcases hcode with hcode | hcode <;> simp [hcode]
  | cutEnd hcode => simp [hcode]

/-- RX_BYTE answers an error only on the checksum byte, and then it writes RX_PHASE alone (R98). -/
theorem rxByte_error_frame {b : Byte} {s t : State} {e : Error} {r : Result} {w : List Byte}
    (h : exec (.rxByte b) s = .next t) (hresponse : t.response = some ⟨.error e, r, w⟩) :
    SameRxData s t ∧ t.rxPhase = .h0 := by
  by_cases hphase : s.rxPhase = .csum
  · obtain rfl := Host.Outcome.next.inj ((exec_rxByte_csum b hphase).symm.trans h)
    simp [SameRxData]
  · rw [exec_rxByte_response h hphase] at hresponse
    cases hresponse

/-- RX_END leaves the receiver expecting a frame (R99). -/
theorem exec_rxEnd_phase {s t : State} (h : exec .rxEnd s = .next t) : t.rxPhase = .h0 := by
  by_cases hphase : s.rxPhase = .h0
  · obtain rfl := Host.Outcome.next.inj ((execRxEnd_idle hphase).symm.trans h)
    exact hphase
  · obtain rfl := Host.Outcome.next.inj ((execRxEnd_cut hphase).symm.trans h)
    rfl

/-- Settles O45: the error rows of the table emit nothing, and each family's frame gives the registers. -/
theorem errorsHaveNoSideEffect : Obligations.ErrorsHaveNoSideEffect := by
  intro i s t e r w h hresponse
  obtain ⟨hanswers, htx⟩ := answers_of_response h hresponse
  obtain ⟨rfl, rfl⟩ : r = .nothing ∧ w = [] := by cases hanswers <;> exact ⟨rfl, rfl⟩
  refine ⟨rfl, rfl, by simpa using htx, ?_⟩
  rcases instr_cases i with hreads | ⟨c, p, hbuilds⟩ | ⟨c, hkey⟩ | ⟨b, rfl⟩ | rfl
  · obtain ⟨hkb, ⟨hphase, hdata⟩, hhost, -⟩ := readsOnly_frame hreads h
    exact ⟨hkb, hdata, hhost, .inl hphase⟩
  · obtain ⟨hkb, ⟨hphase, hdata⟩, hhost⟩ := buildsFrame_frame hbuilds h
    exact ⟨hkb, hdata, hhost, .inl hphase⟩
  · obtain ⟨t', w, hexec, -, -, -, hok⟩ := keyOperationsEmitTheSnapshot c s i hkey
    obtain rfl := Host.Outcome.next.inj (hexec.symm.trans h)
    rw [hok] at hresponse
    cases hresponse
  · obtain ⟨hkb, hhost, -⟩ := (receiverOperationsFrame s t).2 b h
    obtain ⟨hdata, hphase⟩ := rxByte_error_frame h hresponse
    exact ⟨hkb, hdata, hhost, .inr ⟨hphase, .inr ⟨b, rfl⟩⟩⟩
  · obtain ⟨hkb, hdata, hhost, -⟩ := exec_rxEnd_frame h
    exact ⟨hkb, hdata, hhost, .inr ⟨exec_rxEnd_phase h, .inl rfl⟩⟩

/-- No status has the number 7 (R146). -/
theorem statusCode_le (st : Status) : statusCode st ≤ 6 := by
  cases st with
  | ok => decide
  | error e => cases e <;> simp [statusCode]

/-- Settles O47: the numbers are those of the definition, and none is above 6. -/
theorem statusNumbers : Obligations.StatusNumbers := by
  refine ⟨rfl, fun _ => rfl, fun _ => rfl, fun _ _ => rfl, fun _ _ _ => rfl, fun _ _ => rfl, fun _ => rfl, fun st h => ?_⟩
  have hle := statusCode_le st
  omega

end Sys2Proof.Form
end

section
/-!
PROOFS. The invariant of the machine (R24, R32), that it holds at reset and every step keeps it, and that with one host the block never
stops.
-/

namespace Sys2Proof.Form

open Sys2Proof.Machine Sys2Proof.Safety

/-! ## What every instruction keeps -/

/-- Every instruction but a key operation keeps the keyboard registers (R40). -/
theorem exec_sameKeyboard {i : Instr} {s t : State} (h : exec i s = .next t) :
    SameKeyboard s t ∨ (∃ c, t = keyDownState Config.params c s) ∨ ∃ c, t = keyUpState Config.params c s := by
  rcases instr_cases i with hreads | ⟨c, p, hbuilds⟩ | ⟨c, rfl | rfl⟩ | ⟨b, rfl⟩ | rfl
  · exact .inl (readsOnly_frame hreads h).1
  · exact .inl (buildsFrame_frame hbuilds h).1
  · exact .inr (.inl ⟨c, (Host.Outcome.next.inj h).symm⟩)
  · exact .inr (.inr ⟨c, (Host.Outcome.next.inj h).symm⟩)
  · exact .inl ((receiverOperationsFrame s t).2 b h).1
  · exact .inl (exec_rxEnd_frame h).1

/-- Every instruction but RX_BYTE and RX_END keeps the receiver registers (R40). -/
theorem exec_sameReceiver {i : Instr} {s t : State} (h : exec i s = .next t) :
    SameReceiver s t ∨ (∃ b, i = .rxByte b) ∨ i = .rxEnd := by
  rcases instr_cases i with hreads | ⟨c, p, hbuilds⟩ | ⟨c, hkey⟩ | hbyte | hend
  · exact .inl (readsOnly_frame hreads h).2.1
  · exact .inl (buildsFrame_frame hbuilds h).2.1
  · exact .inl (keyOperationsFrame c s t i hkey h).1
  · exact .inr (.inl hbyte)
  · exact .inr (.inr hend)

/-- No instruction touches the host's list of events (log 7). -/
theorem exec_host {i : Instr} {s t : State} (h : exec i s = .next t) : t.host = s.host := by
  rcases instr_cases i with hreads | ⟨c, p, hbuilds⟩ | ⟨c, hkey⟩ | ⟨b, rfl⟩ | rfl
  · exact (readsOnly_frame hreads h).2.2.1
  · exact (buildsFrame_frame hbuilds h).2.2
  · exact (keyOperationsFrame c s t i hkey h).2.1
  · exact ((receiverOperationsFrame s t).2 b h).2.1
  · exact (exec_rxEnd_frame h).2.2.1

/-! ## The slots -/

theorem slotsMoveThroughEmpty_of_eq {s t : State} (h : t.kbSlot = s.kbSlot) : SlotsMoveThroughEmpty s t :=
  fun i => .inl (by rw [h])

/-- No instruction takes a slot from one code directly to another (R24). -/
theorem exec_slotsMoveThroughEmpty {i : Instr} {s t : State} (h : exec i s = .next t) : SlotsMoveThroughEmpty s t := by
  rcases exec_sameKeyboard h with ⟨-, hslot⟩ | ⟨c, rfl⟩ | ⟨c, rfl⟩
  · exact slotsMoveThroughEmpty_of_eq hslot
  · exact keyDownState_slotsMoveThroughEmpty c s
  · exact keyUpState_slotsMoveThroughEmpty c s

/-- Settles O32: an instruction moves each slot through empty, a reset empties it, any other step keeps it. -/
theorem slotsMoveThroughEmptyInEveryStep : Obligations.SlotsMoveThroughEmptyInEveryStep := by
  intro s t h
  rcases step_cases h with ⟨-, rfl⟩ | ⟨later, -, rfl⟩ | ⟨r, later, i, -, -, hexec⟩ | ⟨r, later, w, -, -, rfl⟩
  · exact slotsMoveThroughEmpty_of_eq rfl
  · exact fun i => .inr (.inr (by simp [State.reset]))
  · exact exec_slotsMoveThroughEmpty (s := { s with host := later }) hexec
  · exact slotsMoveThroughEmpty_of_eq rfl

/-! ## The invariant -/

/-- What the receiver holds is in its registers alone. -/
theorem rxHolds_congr {P : Config.Params} {bs : List Byte} {s t : State} (hsame : SameReceiver s t) (h : RxHolds P bs s) :
    RxHolds P bs t := by
  obtain ⟨hphase, hsum, hsync, haddr, hcmd, hlen, hidx, hbuf⟩ := hsame
  simpa only [RxHolds, RxCounts, rxCount, hphase, hsum, hsync, haddr, hcmd, hlen, hidx, hbuf] using h

/-- An instruction keeps modifier codes out of the slots (R24). -/
theorem exec_slotsHoldNoModifier {i : Instr} {s t : State} (h : exec i s = .next t)
    (hs : SlotsHoldNoModifier Config.params s) : SlotsHoldNoModifier Config.params t := by
  rcases exec_sameKeyboard h with ⟨-, hslot⟩ | ⟨c, rfl⟩ | ⟨c, rfl⟩
  · rwa [SlotsHoldNoModifier, hslot]
  · exact keyDownState_slotsHoldNoModifier c hs
  · exact keyUpState_slotsHoldNoModifier c hs

/-- The checksum byte leaves the receiver expecting a frame (R98). -/
theorem exec_rxByte_csum_phase {b : Byte} {s t : State} (h : exec (.rxByte b) s = .next t) (hphase : s.rxPhase = .csum) :
    t.rxPhase = .h0 := by
  obtain rfl := Host.Outcome.next.inj ((exec_rxByte_csum b hphase).symm.trans h)
  rw [finish_rxPhase, rxIdle_rxPhase]

/-- An instruction leaves the receiver holding some partly received frame (R32). -/
theorem exec_rxHolds {i : Instr} {s t : State} {bs : List Byte} (h : exec i s = .next t) (hs : RxHolds Config.params bs s) :
    ∃ cs, RxHolds Config.params cs t := by
  rcases exec_sameReceiver h with hsame | ⟨b, rfl⟩ | rfl
  · exact ⟨bs, rxHolds_congr hsame hs⟩
  · by_cases hphase : s.rxPhase = .csum
    · exact ⟨[], rxHolds_nil (exec_rxByte_csum_phase h hphase)⟩
    · obtain ⟨t', hexec, ht⟩ := receiverHoldsTheBytesOfTheFrame bs b s hs hphase
      obtain rfl := Host.Outcome.next.inj (hexec.symm.trans h)
      exact ⟨_, ht⟩
  · exact ⟨[], rxHolds_nil (exec_rxEnd_phase h)⟩

/-- A state with the reset slots and an idle receiver meets the invariant. -/
theorem inv_of_reset {s : State} (hslot : s.kbSlot = State.reset.kbSlot) (hphase : s.rxPhase = .h0) : Inv s := by
  refine ⟨fun c hc => ?_, [], rxHolds_nil hphase⟩
  obtain rfl : c = 0x00#8 := by simpa [hslot, State.reset] using hc
  exact isModifier_zero _

/-- Settles O54: the reset slots hold 0x00, and the receiver is at H0. -/
theorem invariantHoldsAtReset : Obligations.InvariantHoldsAtReset := inv_of_reset rfl rfl

/-- Settles O55: an instruction keeps both parts, a reset sets them up again, any other step keeps the registers. -/
theorem everyStepKeepsTheInvariant : Obligations.EveryStepKeepsTheInvariant := by
  intro s t hinv h
  rcases step_cases h with ⟨-, rfl⟩ | ⟨later, -, rfl⟩ | ⟨r, later, i, -, -, hexec⟩ | ⟨r, later, w, -, -, rfl⟩
  · exact hinv
  · exact inv_of_reset rfl rfl
  · obtain ⟨hslots, bs, hholds⟩ := hinv
    exact ⟨exec_slotsHoldNoModifier hexec hslots, exec_rxHolds hexec hholds⟩
  · exact hinv

/-- Under the invariant no instruction stops the machine (R157). -/
theorem exec_next_of_inv {s : State} (i : Instr) (h : Inv s) : ∃ t, exec i s = .next t := by
  obtain ⟨-, bs, -, hcounts, -⟩ := h
  rcases exec_next_or_rxFault i s with hnext | ⟨b, -, hphase, hidx, -⟩
  · exact hnext
  · exact absurd (rxIdx_lt_of_rxCounts hcounts hphase) hidx

/-- Settles O56: by the oldest event; an instruction goes on under the invariant, and leaves the later events. -/
theorem oneHostNeverStopsTheBlock : Obligations.OneHostNeverStopsTheBlock := by
  intro s hinv hhost
  cases hevents : s.host with
  | nil => exact ⟨s, nothingPresentedNothingHappens s hevents, hhost⟩
  | cons event later =>
    rw [hevents] at hhost
    obtain ⟨hevent, hlater⟩ : _ ∧ singleHost later = true := by
      simpa only [singleHost, List.all_cons, Bool.and_eq_true] using hhost
    cases event with
    | otherAgent r => cases hevent
    | reset =>
      obtain ⟨t, hstep, -, -, -, -, -, -, -, -, -, -, ht⟩ := resetEventResetsTheRegisters s later hevents
      exact ⟨t, hstep, by rw [ht, hlater]⟩
    | request r =>
      cases hdecode : decode r with
      | ok i =>
        obtain ⟨t, hexec⟩ := exec_next_of_inv (s := { s with host := later }) i hinv
        exact ⟨t, (stepRunsDecodedInstruction s r later i hevents hdecode).trans hexec, by rw [exec_host hexec, hlater]⟩
      | error e =>
        obtain ⟨w⟩ := e
        refine ⟨raise (.reservedOp w) { s with host := later }, ?_, hlater⟩
        simp only [step, transaction, hevents, hdecode]

end Sys2Proof.Form
end

section
/-!
PROOFS. The host's rule of one request in flight (R177, R178): what an operation sends, what one transaction does to the host's round
trip, and what follows for a run.
-/

namespace Sys2Proof.Form

open Sys2Proof.Machine Sys2Proof.Safety

/-! ## What an operation sends -/

/-- An operation either sends one whole frame, or answers with no emitted bytes (R45). -/
theorem Answers.sends_cases {i : Instr} {a : Response} (h : Answers i a) :
    (sendsFrame i = true ∧ ∃ c p, p.length ≤ 255 ∧ a = ⟨.ok, .emitted (frameBytes c p), frameBytes c p⟩) ∨
      (sendsFrame i = false ∧ a.emitted = []) := by
  cases h with
  | frame c hsends hfits => exact .inl ⟨hsends, c, _, hfits, rfl⟩
  | tooLong _ hsends _ => exact .inr ⟨hsends, rfl⟩
  | matched hchecks => exact .inr ⟨checkedResponse_sendsFrame hchecks, rfl⟩
  | matchError hchecks _ => exact .inr ⟨checkedResponse_sendsFrame hchecks, rfl⟩
  | _ => exact .inr ⟨rfl, rfl⟩

/-- Settles O58: an operation that sends a frame never faults, and the table says what it and the others emit. -/
theorem sendsFrameExactlyWhenBytesAreEmitted : Obligations.SendsFrameExactlyWhenBytesAreEmitted := by
  intro i s
  constructor
  · intro hsends
    obtain ⟨t, hexec⟩ : ∃ t, exec i s = .next t := by
      rcases exec_next_or_rxFault i s with hnext | ⟨b, rfl, -⟩
      · exact hnext
      · cases hsends
    obtain ⟨a, -, hanswers, htx⟩ := exec_answers hexec
    rcases hanswers.sends_cases with ⟨-, c, p, hfits, rfl⟩ | ⟨hsilent, -⟩
    · refine ⟨t, c, p, hexec, hfits, htx, fun hsame => ?_⟩
      have hnil : frameBytes c p = [] := by simpa [hsame] using htx
      have hlength := frameBytes_length c p
      rw [hnil, List.length_nil] at hlength
      omega
    · exact absurd (hsends.symm.trans hsilent) (by decide)
  · intro hsilent t hexec
    obtain ⟨a, -, hanswers, htx⟩ := exec_answers hexec
    rw [htx, hanswers.emitted_eq_nil hsilent, List.append_nil]

/-- A frame is a request when its command byte has bit 7 clear (R62). -/
theorem requestSent_frame (st : Status) (r : Result) (c : Byte) (p : List Byte) :
    requestSent ⟨st, r, frameBytes c p⟩ = if c.toNat < 128 then some c else none := by
  by_cases hc : c.toNat < 128
  · simp [requestSent, frameBytes, unsummed, hc]
  · simp [requestSent, frameBytes, unsummed, hc, not_lt.mp hc]

theorem requestSent_silent {a : Response} (h : a.emitted = []) : requestSent a = none := by
  simp [requestSent, h]

/-- A request of code `c` is sent with this code (R62, R118). -/
theorem SendsRequest.requestSent_eq {i : Instr} {c : Byte} {s t : State} {a : Response} (h : SendsRequest i c)
    (hexec : exec i s = .next t) (hresponse : t.response = some a) : requestSent a = some c := by
  rcases h with ⟨hc, p, hfits, hbuilds⟩ | ⟨rfl, k, hkey⟩
  · obtain rfl := Host.Outcome.next.inj ((wireRequestsEmitTheirFrames i c p s hbuilds hfits).symm.trans hexec)
    obtain rfl := Option.some.inj hresponse
    rw [requestSent_frame, if_pos hc]
  · obtain ⟨t', w, hexec', hw, -, -, hresponse'⟩ := keyOperationsEmitTheSnapshot k s i hkey
    obtain rfl := Host.Outcome.next.inj (hexec'.symm.trans hexec)
    obtain rfl := Option.some.inj (hresponse'.symm.trans hresponse)
    rw [hw, requestSent_frame]
    rfl

/-! ## One transaction of the host -/

/-- A host that keeps the rule sends a request only when none is outstanding, and then awaits its response (R177). -/
theorem hostMove_of_request {w v : RoundTrip} {e : Exchange} {c : Byte} (h : hostMove w e = some v)
    (hsent : requestSent e.response = some c) : w = .idle ∧ v = .awaiting c := by
  cases w <;> simp_all [hostMove]

/-- With no request outstanding and none sent, none is outstanding after. -/
theorem hostMove_of_idle {v : RoundTrip} {e : Exchange} (h : hostMove .idle e = some v)
    (hsent : requestSent e.response = none) : v = .idle := by
  simp_all [hostMove]

/-- While a response is awaited, a frame is received, receiving it fails, or it is awaited further (log 20). -/
theorem hostMove_awaiting_cases {c : Byte} {v : RoundTrip} {e : Exchange} (h : hostMove (.awaiting c) e = some v) :
    (∃ f, frameReceived e.response = some f ∧ v = .received c f) ∨ receiveFailed e.response = true ∨ v = .awaiting c := by
  cases hsent : requestSent e.response with
  | some d => simp [hostMove, hsent] at h
  | none =>
    cases hframe : frameReceived e.response with
    | some f => exact .inl ⟨f, rfl, by simpa [hostMove, hsent, hframe] using h.symm⟩
    | none =>
      by_cases hfailed : receiveFailed e.response = true
      · exact .inr (.inl hfailed)
      · exact .inr (.inr (by simpa [hostMove, hsent, hframe, hfailed] using h.symm))

/-- While a received frame is unchecked, it is checked against its request, or waits further (R177). -/
theorem hostMove_received_cases {c : Byte} {f : Frame} {v : RoundTrip} {e : Exchange}
    (h : hostMove (.received c f) e = some v) : checkedResponse e.instr = some (c, f) ∨ v = .received c f := by
  cases hsent : requestSent e.response with
  | some d => simp [hostMove, hsent] at h
  | none =>
    by_cases hcheck : checkedResponse e.instr = some (c, f)
    · exact .inl hcheck
    · exact .inr (by simpa [hostMove, hsent, hcheck] using h.symm)

/-- One transaction keeps the balance: requests sent plus the round trip open before are the round trips ended plus the one open
after. -/
theorem hostMove_balance {w v : RoundTrip} {e : Exchange} (h : hostMove w e = some v) :
    (if (requestSent e.response).isSome then 1 else 0) + (if w = .idle then 0 else 1) =
      (if endsRoundTrip w e then 1 else 0) + (if v = .idle then 0 else 1) := by
  have hends : endsRoundTrip w e = decide (w ≠ .idle ∧ v = .idle) := by simp [endsRoundTrip, h]
  rw [hends]
  cases hsent : requestSent e.response with
  | some c =>
    obtain ⟨rfl, rfl⟩ := hostMove_of_request h hsent
    simp
  | none =>
    by_cases hidle : w = .idle
    · subst hidle
      simp [hostMove_of_idle h hsent]
    · by_cases hv : v = .idle <;> simp [hidle, hv]

/-! ## Runs and the host's way through them -/

/-- A run of an instruction and more is its transaction and the run of the rest. -/
theorem run_cons {i : Instr} {is : List Instr} {s t : State} {es : List Exchange} (h : run (i :: is) s = some (es, t)) :
    ∃ u a es', exec i s = .next u ∧ u.response = some a ∧ run is u = some (es', t) ∧ es = ⟨i, a⟩ :: es' := by
  cases hexec : exec i s with
  | next u =>
    cases hresponse : u.response with
    | none => simp [run, hexec, hresponse] at h
    | some a =>
      simp only [run, hexec, hresponse, Option.map_eq_some_iff, Prod.exists, Prod.mk.injEq] at h
      obtain ⟨es', t', hrun, rfl, rfl⟩ := h
      exact ⟨u, a, es', rfl, hresponse, hrun, rfl⟩
  | fault r => simp [run, hexec] at h
  | refused r => simp [run, hexec] at h

/-- A run of two sequences is a run of the first and then of the second. -/
theorem run_append {xs ys : List Instr} {s t : State} {es : List Exchange} (h : run (xs ++ ys) s = some (es, t)) :
    ∃ u es1 es2, run xs s = some (es1, u) ∧ run ys u = some (es2, t) ∧ es = es1 ++ es2 := by
  induction xs generalizing s es with
  | nil => exact ⟨s, [], es, rfl, h, rfl⟩
  | cons i is ih =>
    obtain ⟨u, a, es', hexec, hresponse, hrun, rfl⟩ := run_cons h
    obtain ⟨v, es1, es2, hrun1, hrun2, rfl⟩ := ih hrun
    exact ⟨v, ⟨i, a⟩ :: es1, es2, by simp [run, hexec, hresponse, hrun1], hrun2, rfl⟩

/-- A run's transactions are of its instructions, in order. -/
theorem run_map_instr {is : List Instr} {s t : State} {es : List Exchange} (h : run is s = some (es, t)) :
    es.map Exchange.instr = is := by
  induction is generalizing s es with
  | nil =>
    obtain ⟨rfl, -⟩ := Prod.mk.inj (Option.some.inj h)
    rfl
  | cons i is ih =>
    obtain ⟨u, a, es', -, -, hrun, rfl⟩ := run_cons h
    rw [List.map_cons, ih hrun]

/-- The transaction is one the block can carry out. -/
def Ran (e : Exchange) : Prop := ∃ s t, exec e.instr s = .next t ∧ t.response = some e.response

/-- A run's transactions were carried out. -/
theorem run_ran {is : List Instr} {s t : State} {es : List Exchange} (h : run is s = some (es, t)) : ∀ e ∈ es, Ran e := by
  induction is generalizing s es with
  | nil =>
    obtain ⟨rfl, -⟩ := Prod.mk.inj (Option.some.inj h)
    simp
  | cons i is ih =>
    obtain ⟨u, a, es', hexec, hresponse, hrun, rfl⟩ := run_cons h
    intro e he
    rcases List.mem_cons.mp he with rfl | he
    · exact ⟨s, u, hexec, hresponse⟩
    · exact ih hrun e he

/-- Following one transaction and more is one move and the rest. -/
theorem follow_cons {w v : RoundTrip} {e : Exchange} {es : List Exchange} (h : follow w (e :: es) = some v) :
    ∃ u, hostMove w e = some u ∧ follow u es = some v := by
  cases hmove : hostMove w e with
  | none => simp [follow, hmove] at h
  | some u => exact ⟨u, rfl, by simpa [follow, hmove] using h⟩

/-- Following two sequences is following the first and then the second. -/
theorem follow_append {w v : RoundTrip} {es es' : List Exchange} (h : follow w (es ++ es') = some v) :
    ∃ u, follow w es = some u ∧ follow u es' = some v := by
  induction es generalizing w with
  | nil => exact ⟨w, rfl, h⟩
  | cons e es ih =>
    obtain ⟨u, hmove, hrest⟩ := follow_cons h
    obtain ⟨x, hx, hv⟩ := ih hrest
    exact ⟨x, by simp [follow, hmove, hx], hv⟩

/-! ## Requests sent and round trips ended -/

/-- The number of request frames among the frames of a run (R62). -/
def requestFrames (fs : List (Byte × List Byte)) : Nat := (fs.filter fun f => decide (f.1.toNat < 128)).length

/-- What one operation of a run puts on the stream: one whole frame or none, which is a request frame or not. -/
theorem exec_frames {i : Instr} {s u : State} {a : Response} (hexec : exec i s = .next u) (hresponse : u.response = some a) :
    ∃ fs : List (Byte × List Byte), (∀ f ∈ fs, f.2.length ≤ 255) ∧
      u.tx = s.tx ++ fs.flatMap (fun f => frameBytes f.1 f.2) ∧ fs.length = ([i].filter sendsFrame).length ∧
      requestFrames fs = if (requestSent a).isSome then 1 else 0 := by
  obtain ⟨hanswers, htx⟩ := answers_of_response hexec hresponse
  rcases hanswers.sends_cases with ⟨hsends, c, p, hfits, rfl⟩ | ⟨hsilent, hnil⟩
  · refine ⟨[(c, p)], by simpa using hfits, by simpa using htx, by simp [hsends], ?_⟩
    rw [requestSent_frame]
    by_cases hc : c.toNat < 128 <;> simp [requestFrames, hc]
  · exact ⟨[], by simp, by simp [htx, hnil], by simp [hsilent], by simp [requestFrames, requestSent_silent hnil]⟩

/-- Along a run of a host that keeps the rule the balance of requests and round trips is kept, from wherever the host stands. -/
theorem run_balance {is : List Instr} {s t : State} {es : List Exchange} {w v : RoundTrip} (hrun : run is s = some (es, t))
    (hfollow : follow w es = some v) :
    ∃ fs : List (Byte × List Byte), (∀ f ∈ fs, f.2.length ≤ 255) ∧
      t.tx = s.tx ++ fs.flatMap (fun f => frameBytes f.1 f.2) ∧ fs.length = (is.filter sendsFrame).length ∧
      requestFrames fs + (if w = .idle then 0 else 1) = roundTripsEnded w es + (if v = .idle then 0 else 1) := by
  induction is generalizing s es w with
  | nil =>
    obtain ⟨rfl, rfl⟩ := Prod.mk.inj (Option.some.inj hrun)
    obtain rfl := Option.some.inj hfollow
    exact ⟨[], by simp, by simp, rfl, by simp [requestFrames, roundTripsEnded]⟩
  | cons i is ih =>
    obtain ⟨u, a, es', hexec, hresponse, hrun', rfl⟩ := run_cons hrun
    obtain ⟨x, hmove, hfollow'⟩ := follow_cons hfollow
    obtain ⟨fs, hfits, htx, hlength, hrequests⟩ := exec_frames hexec hresponse
    obtain ⟨gs, hfits', htx', hlength', hbalance⟩ := ih hrun' hfollow'
    have hstep : (if (requestSent a).isSome then 1 else 0) + (if w = .idle then 0 else 1) =
        (if endsRoundTrip w ⟨i, a⟩ then 1 else 0) + (if x = .idle then 0 else 1) := hostMove_balance hmove
    refine ⟨fs ++ gs, ?_, ?_, ?_, ?_⟩
    · exact fun f hf => (List.mem_append.mp hf).elim (hfits f) (hfits' f)
    · rw [htx', htx, List.flatMap_append, List.append_assoc]
    · rw [List.length_append, hlength, hlength', ← List.length_append, ← List.filter_append, List.singleton_append]
    · have happend : requestFrames (fs ++ gs) = requestFrames fs + requestFrames gs := by simp [requestFrames]
      have hended : roundTripsEnded w (⟨i, a⟩ :: es') =
          (if endsRoundTrip w ⟨i, a⟩ then 1 else 0) + roundTripsEnded x es' := by simp [roundTripsEnded, hmove]
      rw [happend, hended, hrequests]
      omega

/-- Settles O57: the balance along a run that starts with no request outstanding. -/
theorem disciplinedHostHasOneRequestOutstanding : Obligations.DisciplinedHostHasOneRequestOutstanding := by
  intro is s t es w hrun hfollow
  obtain ⟨fs, hfits, htx, hlength, hbalance⟩ := run_balance hrun hfollow
  exact ⟨fs, hfits, htx, hlength, hbalance⟩

/-! ## The response of one request is received and checked before the next -/

/-- A frame is returned only by DECODE and RX_BYTE (R92, R98). -/
theorem Ran.receives {e : Exchange} {f : Frame} (h : Ran e) (hframe : frameReceived e.response = some f) : Receives e f := by
  obtain ⟨i, a⟩ := e
  obtain ⟨s, t, hexec, hresponse⟩ := h
  obtain ⟨hanswers, -⟩ := answers_of_response hexec hresponse
  cases hanswers with
  | decoded b g rest =>
    obtain rfl := Option.some.inj hframe
    exact .inl ⟨b, rest, rfl, rfl⟩
  | received b g =>
    obtain rfl := Option.some.inj hframe
    exact .inr ⟨b, rfl, rfl⟩
  | _ => cases hframe

/-- The failures to receive are the errors 2, 3 and 4 (R146). -/
theorem receiveFailed_code {e : Error} {r : Result} {w : List Byte} (h : receiveFailed ⟨.error e, r, w⟩ = true) :
    statusCode (.error e) = 2 ∨ statusCode (.error e) = 3 ∨ statusCode (.error e) = 4 := by
  cases e <;> simp_all [receiveFailed, statusCode]

/-- Receiving fails only in DECODE, RX_BYTE and RX_END (R92, R98, R99). -/
theorem Ran.failsToReceive {e : Exchange} (h : Ran e) (hfailed : receiveFailed e.response = true) : FailsToReceive e := by
  obtain ⟨i, a⟩ := e
  obtain ⟨s, t, hexec, hresponse⟩ := h
  obtain ⟨hanswers, -⟩ := answers_of_response hexec hresponse
  cases hanswers with
  | decodeError b _ => exact ⟨.inl ⟨b, rfl⟩, _, rfl⟩
  | receiveError b _ => exact ⟨.inr (.inl ⟨b, rfl⟩), _, rfl⟩
  | cutEnd _ => exact ⟨.inr (.inr rfl), _, rfl⟩
  | tooLong _ _ hcode => have hfail := receiveFailed_code hfailed; omega
  | matchError _ hcode => have hfail := receiveFailed_code hfailed; omega
  | _ => cases hfailed

/-- A check of `f` against `c` answers what MATCH_RESPONSE answers (R104). -/
theorem Ran.checks {e : Exchange} {c : Byte} {f : Frame} (h : Ran e) (hcheck : checkedResponse e.instr = some (c, f)) :
    Checks e c f := by
  obtain ⟨s, t, hexec, hresponse⟩ := h
  obtain ⟨st, hanswered, -⟩ := exec_matchResponse_status c f
  obtain rfl := Host.Outcome.next.inj ((hanswered s).symm.trans ((exec_of_checkedResponse hcheck s).symm.trans hexec))
  exact ⟨checkedResponse_eq_some hcheck, st, (Option.some.inj hresponse).symm, hanswered⟩

/-- A received frame is checked before the host is idle again (R177). -/
theorem follow_received {es : List Exchange} {c : Byte} {f : Frame} (hran : ∀ e ∈ es, Ran e)
    (h : follow (.received c f) es = some .idle) : ∃ b y z, es = b ++ [y] ++ z ∧ Checks y c f := by
  induction es with
  | nil => cases h
  | cons e es ih =>
    obtain ⟨v, hmove, hrest⟩ := follow_cons h
    rcases hostMove_received_cases hmove with hcheck | rfl
    · exact ⟨[], e, es, rfl, (hran e (by simp)).checks hcheck⟩
    · obtain ⟨b, y, z, rfl, hy⟩ := ih (fun x hx => hran x (by simp [hx])) hrest
      exact ⟨e :: b, y, z, rfl, hy⟩

/-- An awaited response is received and checked, or receiving it fails, before the host is idle again (R177; log 20). -/
theorem follow_awaiting {es : List Exchange} {c : Byte} (hran : ∀ e ∈ es, Ran e)
    (h : follow (.awaiting c) es = some .idle) :
    (∃ e ∈ es, FailsToReceive e) ∨
      ∃ a b z x y f, es = a ++ [x] ++ b ++ [y] ++ z ∧ Receives x f ∧ Checks y c f := by
  induction es with
  | nil => cases h
  | cons e es ih =>
    obtain ⟨v, hmove, hrest⟩ := follow_cons h
    have he : Ran e := hran e (by simp)
    have hes : ∀ x ∈ es, Ran x := fun x hx => hran x (by simp [hx])
    rcases hostMove_awaiting_cases hmove with ⟨f, hframe, rfl⟩ | hfailed | rfl
    · obtain ⟨b, y, z, rfl, hy⟩ := follow_received hes hrest
      exact .inr ⟨[], b, z, e, y, f, by simp, he.receives hframe, hy⟩
    · exact .inl ⟨e, by simp, he.failsToReceive hfailed⟩
    · rcases ih hes hrest with ⟨x, hx, hfails⟩ | ⟨a, b, z, x, y, f, rfl, hx, hy⟩
      · exact .inl ⟨x, by simp [hx], hfails⟩
      · exact .inr ⟨e :: a, b, z, x, y, f, rfl, hx, hy⟩

/-- The transaction of a request in a run. -/
theorem run_request {i : Instr} {c : Byte} {s t : State} {es : List Exchange} (hrequest : SendsRequest i c)
    (h : run [i] s = some (es, t)) : ∃ e, es = [e] ∧ requestSent e.response = some c := by
  obtain ⟨u, a, es', hexec, hresponse, hrun, rfl⟩ := run_cons h
  obtain ⟨rfl, -⟩ := Prod.mk.inj (Option.some.inj hrun)
  exact ⟨_, rfl, hrequest.requestSent_eq hexec hresponse⟩

/-- Settles O59: after the first request the host awaits its response and before the next it is idle, so between them it is received and
checked. -/
theorem nextRequestWaitsForTheCheckedResponse : Obligations.NextRequestWaitsForTheCheckedResponse := by
  intro before mid i j c d s t es hrun hrule hfirst hnext
  obtain ⟨u2, es01, es2, hrun01, hrun2, rfl⟩ := run_append hrun
  obtain ⟨u1, es0, es1, hrun0, hrun1, rfl⟩ := run_append hrun01
  obtain ⟨u0, esBefore, esFirst, -, hrunFirst, rfl⟩ := run_append hrun0
  obtain ⟨e, rfl, hsent⟩ := run_request hfirst hrunFirst
  obtain ⟨e', rfl, hsent'⟩ := run_request hnext hrun2
  obtain ⟨w, hfollow⟩ := Option.isSome_iff_exists.mp hrule
  obtain ⟨w2, hfollow01, hfollow2⟩ := follow_append hfollow
  obtain ⟨w1, hfollow0, hfollow1⟩ := follow_append hfollow01
  obtain ⟨w0, -, hfollowFirst⟩ := follow_append hfollow0
  have hawaiting : w1 = .awaiting c := by
    obtain ⟨v, hmove, hv⟩ := follow_cons hfollowFirst
    obtain rfl := Option.some.inj hv
    exact (hostMove_of_request hmove hsent).2
  have hidle : w2 = .idle := by
    obtain ⟨v, hmove, -⟩ := follow_cons hfollow2
    exact (hostMove_of_request hmove hsent').1
  subst hawaiting hidle
  exact ⟨_, es1, _, rfl, run_map_instr hrun0, run_map_instr hrun1, run_map_instr hrun2,
    follow_awaiting (run_ran hrun1) hfollow1⟩

end Sys2Proof.Form
end
